-- ==== Sys2Proof/Word.lean ====
section
/-! DEFINITION. The word types of the model: bytes, double words, quad words (spec/00_scope.md R8). -/
namespace Sys2Proof

/-- One byte of memory (R200). -/
abbrev Byte := BitVec 8
/-- A 32-bit DWord (R8). -/
abbrev DWord := BitVec 32
/-- A 64-bit QWord (R8). -/
abbrev QWord := BitVec 64
/-- A 128-bit OWord, the size of the wide texture blocks (R8). -/
abbrev OWord := BitVec 128

end Sys2Proof
end

