-- ==== Sys2Proof/Config.lean ====
section
/-! DEFINITION. The values the spec leaves open and no rule constrains: opaque constants, applied to a counter of
the state or to the operands they may depend on (spec/93_implementation_defined.md, treatment "any value" and
"parameter"; spec/92_eei_decisions.md section 2). -/
namespace Sys2Proof.Config

/-- An arbitrary byte: data of an invalid access (R1324), of a faulted read (R1322), of a refused atomic (R792).
Applied to the counter `State.freeCount`. Log entry 2. -/
opaque freeByte : Nat → Byte
/-- An arbitrary choice the spec leaves to the hardware: whether a remembered fact is still held when a look-up
matches it (R702: a fact may be dropped at any time). Applied to `State.freeCount`. Log entry 3. -/
opaque freeBool : Nat → Bool
/-- `SrgbToLinear`: an 8-bit sRGB channel to a linear channel (R850, R1058; open parameter of 92 section 2). That the
linear value has 16 bits is a DESIGN CHOICE, log entry 4. -/
opaque srgbToLinear : BitVec 8 → BitVec 16
/-- `ImsSamplePosition(n, x, y, k)`: where sample `k` of pixel `(x, y)` lies in an interleaved multisampled surface of
`n` samples (R1251, U36). Log entry 5. -/
opaque imsSamplePosition : Nat → Nat → Nat → Nat → Nat × Nat
/-- `Tile3DSwizzle`: the offset inside a 3D TileYS (`big`) or TileYF tile of an element of `2^bppLog` bytes from the
low bits of u, v and r (R1272, U37). Log entry 5. -/
opaque tile3DSwizzle : Bool → Nat → Nat → Nat → Nat → Nat
/-- The offset of a byte of a multisampled TileYF surface, of samples, element size, pitch, u, v and sample slice: the
source gives no table (R1262). Log entry 5. -/
opaque tileYfMsaaOffset : Nat → Nat → Nat → Nat → Nat → Nat → Nat
/-- The number of elements in an aligned LOD width or height that the block size does not divide: R1224 divides, and
says that it always divides. Log entry 5. -/
opaque raggedElements : Nat → Nat → Nat

end Sys2Proof.Config
end

