-- ==== Sys2Proof/Machine/Bits.lean ====
section
/-! DEFINITION. Bit fields and byte order (spec/00_scope.md R8, R9; spec/20_memory.md R200). -/
namespace Sys2Proof.Machine

/-- `v[hi:lo]` as an unsigned integer (R8). -/
def bits {w : Nat} (v : BitVec w) (hi lo : Nat) : Nat := (v.toNat >>> lo) % 2 ^ (hi + 1 - lo)

/-- `v[i]` (R8). -/
def bit {w : Nat} (v : BitVec w) (i : Nat) : Bool := (v.toNat >>> i) % 2 == 1

/-- `n[hi:lo]` of a natural number. -/
def nbits (n hi lo : Nat) : Nat := (n >>> lo) % 2 ^ (hi + 1 - lo)

/-- `n[i]` of a natural number, as 0 or 1. -/
def nbit (n i : Nat) : Nat := (n >>> i) % 2

/-- A Boolean as 0 or 1. -/
def b2n (b : Bool) : Nat := if b then 1 else 0

/-- `sext`: the low `n` bits of `v` read as two's complement (R9). -/
def signExt (v n : Nat) : Int :=
  let u := v % 2 ^ n
  if 2 * u ≥ 2 ^ n then (u : Int) - (2 ^ n : Nat) else u

/-- `clamp(v, lo, hi)` of R9. -/
def clampI (v lo hi : Int) : Int := max lo (min hi v)

/-- `n` little-endian bytes of a number: byte `k` is bits `8k+7:8k` (R200). -/
def leBytes : Nat → Nat → List Byte
  | 0, _ => []
  | n + 1, v => BitVec.ofNat 8 v :: leBytes n (v / 256)

/-- The number whose little-endian bytes these are (R200). -/
def leNat : List Byte → Nat
  | [] => 0
  | b :: bs => b.toNat + 256 * leNat bs

/-- Set bits `hi:lo` of a mask (R578 `RES`). -/
def maskOf (lo hi : Nat) : Nat := (2 ^ (hi + 1 - lo) - 1) <<< lo

end Sys2Proof.Machine
end

