-- ==== Sys2Proof/Machine/State.lean ====
section
/-! DEFINITION. The state of the machine: everything the spec says holds a value between two operations
(spec/10_state.md R30), as plain data, and the state after reset (R180, spec/70_reset_and_hazards.md R1381). -/
namespace Sys2Proof.Machine

/-! ### Names and small records -/

/-- The five engines with descriptor state (R60, R662). -/
inductive Engine where
  | render | vcs0 | vcs1 | vecs | bcs
  deriving DecidableEq, Repr

/-- One value per engine. -/
structure PerEngine (α : Type) where
  render : α
  vcs0 : α
  vcs1 : α
  vecs : α
  bcs : α
  deriving DecidableEq, Repr

/-- The value of one engine. -/
def PerEngine.get {α : Type} (p : PerEngine α) : Engine → α
  | .render => p.render
  | .vcs0 => p.vcs0
  | .vcs1 => p.vcs1
  | .vecs => p.vecs
  | .bcs => p.bcs

/-- Replace the value of one engine. -/
def PerEngine.set {α : Type} (p : PerEngine α) (e : Engine) (v : α) : PerEngine α :=
  match e with
  | .render => { p with render := v }
  | .vcs0 => { p with vcs0 := v }
  | .vcs1 => { p with vcs1 := v }
  | .vecs => { p with vecs := v }
  | .bcs => { p with bcs := v }

/-- `Access` of R570: the kind, and `fetch`, which only a read can have. -/
inductive Acc where
  | read | fetch | write | atomic
  deriving DecidableEq, Repr

/-- The `client` tag of an access: the values of R1306, whose "Other" is told apart by the clients and streams that R207
and R700 name: pipelined state and constants, the command stream, the vertex stream, the render (colour) and depth
caches, media surfaces, and whatever is left. -/
inductive Client where
  | hdcCoherent | hdcNoncoherent | ic | sampler | other
  | state | command | vertex | color | depth | media
  deriving DecidableEq, Repr

/-- The final-translation TLBs (R700), and the 16 entries of GATR for accesses of no engine. -/
inductive TlbId where
  | l3 | mfx | blt | z | c | ff | vlf | gav | gatr
  deriving DecidableEq, Repr

/-- The 2-bit fault codes (R1302). -/
inductive FaultCode where
  | noFault | notPresent | privilege | writePermission
  deriving DecidableEq, Repr

/-- The table level at which a walk faulted (R592, R1303; model-internal). -/
inductive Level where
  | gtt | pml4 | pdp | pd | pt
  deriving DecidableEq, Repr

/-- The fault handling models (R1308). -/
inductive FaultModel where
  | hang | halt | stream
  deriving DecidableEq, Repr

/-- The page sizes a walk reports (R609). -/
inductive PageSize where
  | size4K | size64K | size2M | size1G
  deriving DecidableEq, Repr

/-- The memory types and their 3-bit MTRR codes (R264, R745). -/
inductive MemType where
  | uc | wc | wt | wp | wb
  deriving DecidableEq, Repr

/-- Where a line may be cached (R250, R259). -/
inductive TargetCache where
  | noCache | llc | llcEllc | ellcOnly
  deriving DecidableEq, Repr

/-- The record of a page fault (R1303). `engine = none` is a host aperture or display access (R1304). -/
structure PageFault where
  code : FaultCode
  level : Level
  va : Nat
  acc : Acc
  engine : Option Engine
  ggtt : Bool
  /-- The privilege was that of U/S, which any access of the context lacks (R713). -/
  us : Bool
  pasid : BitVec 20
  contextID : BitVec 32
  deriving DecidableEq, Repr

/-- The kinds of catastrophic error (R1328), and the response failure reported the same way (R1336). -/
inductive ErrorKind where
  | adUpdateNonWB | atomicNonWB | pageRequestDisabled | responseFailure
  deriving DecidableEq, Repr

/-- The result of a translation (R570 `Xlate`). -/
inductive Xlate where
  | phys (pa : Nat) (size : PageSize) (pat pcd pwt : Bool)
  | nullPage
  deriving DecidableEq, Repr

/-- The result of `TRTT.WALK` (R508). -/
inductive TrttResult where
  | mapped (va : Nat)
  | null
  | invalid
  deriving DecidableEq, Repr

/-! ### Contexts -/

/-- The five descriptor registers of an engine (R60, R670, R672). -/
structure Descriptor where
  element : QWord
  pdp0 : QWord
  pdp1 : QWord
  pdp2 : QWord
  pdp3 : QWord
  deriving DecidableEq, Repr

/-- What the IOMMU structures hold for one PASID of one function (R668, R111, R43): an input of the machine, in host
memory. -/
structure IommuEntry where
  function : BitVec 3
  pasid : BitVec 20
  pml4 : QWord
  nxe : Bool
  wpe : Bool
  smep : Bool
  neste : Bool
  pge : Bool
  eafe : Bool
  fl64kpe : Bool
  sre : Bool
  ere : Bool
  paside : Bool
  preCtx : Bool
  deriving DecidableEq, Repr

/-- The resident context of an engine (R664, R110), with the context-cache and PASID-cache copies of its IOMMU
inputs (R703, R704). -/
structure Ctx where
  valid : Bool
  advanced : Bool
  usePPGTT : Bool
  supervisor : Bool
  va48 : Bool
  adEnable : Bool
  deepCoherency : Bool
  faultModel : BitVec 2
  function : BitVec 3
  contextID : BitVec 32
  pasid : BitVec 20
  pml4 : QWord
  pdp0 : QWord
  pdp1 : QWord
  pdp2 : QWord
  pdp3 : QWord
  iommu : IommuEntry
  bad : Bool
  deriving DecidableEq, Repr

/-- The run state of an engine (R120). -/
inductive RunState where
  | idle | running | switching
  | halted (f : PageFault)
  /-- `held`: the faulted request waits to be continued as an invalid access (R1312). -/
  | hung (f : PageFault) (held : Bool)
  deriving DecidableEq, Repr

/-! ### Translation caches -/

/-- A final TLB entry (R710): U/S is not stored. -/
structure TlbEntry where
  page : Nat
  size : PageSize
  frame : Nat
  rw : Bool
  xd : Bool
  dirty : Bool
  pat : Bool
  pcd : Bool
  pwt : Bool
  deriving DecidableEq, Repr

/-- A remembered fact of the abstract translation cache (R702). -/
inductive Fact where
  /-- A complete translation (R710), in the TLB of one stream (R700); `ggtt` says which space it belongs to. -/
  | leaf (tlb : TlbId) (ggtt : Bool) (e : TlbEntry)
  /-- A non-leaf paging-structure entry at a physical address: the page-walk caches (R706). -/
  | entry (addr : Nat) (val : QWord)
  /-- A page-table or GGTT entry at a physical address, of a line that the GTT cache holds (R724). -/
  | gttEntry (addr : Nat) (val : QWord)
  /-- A TR-TT table entry of `size` bytes at a graphics virtual address (R716). -/
  | trEntry (va size : Nat) (val : QWord)
  /-- The result of a complete TR-TT walk for a 64 KB tile (R716); a mapped tile by its base. -/
  | trTile (tile : Nat) (r : TrttResult)
  /-- A faulted record (R713), in the TLB of the stream that faulted: the page and the reason; `fetchOnly` if only a fetch
  meets it. -/
  | faulted (tlb : TlbId) (page : Nat) (reason : FaultCode) (fetchOnly : Bool) (pasid : BitVec 20)
  deriving DecidableEq, Repr

/-! ### Requests, responses, events -/

/-- The function of a data atomic (R570 `VAtomic`): the arithmetic and the sizes belong to other volumes, so the requester
names it, of operands that are as wide as the access. Log entry 6. -/
inductive RmwFun where
  | exchange (v : Nat) | add (v : Nat) | and (v : Nat) | or (v : Nat) | xor (v : Nat)
  | cmpExchange (c v : Nat)
  deriving DecidableEq, Repr

/-- What an access does with the addressed bytes (R570). -/
inductive AccessOp where
  | vread (n : Nat)
  | vfetch (n : Nat)
  | vwrite (data : List Byte)
  | vatomic (n : Nat) (f : RmwFun)
  deriving DecidableEq, Repr

/-- What the address of an access is (R230): graphics virtual, or a physical one that the client specifies directly,
snooped (`SM_Address`) or not (`MM_Address`). -/
inductive Space where
  | virtual
  | physical (snooped : Bool)
  deriving DecidableEq, Repr

/-- One access of a GPU client, with the attributes the spec makes inputs of it: the client tag
(R1306), the MOCS index or "GTT control only" (R242), the GGTT selector (R571), and whether the surface is known to
be Tile-X (R503). `engine = none` is the display engine or a host aperture access. -/
structure MemAccess where
  engine : Option Engine
  client : Client
  /-- The slice and the unit that the data goes back to (R338, R1322). -/
  slice : BitVec 2
  hdc : BitVec 2
  space : Space
  mocs : Option (BitVec 6)
  useGgtt : Bool
  tileX : Bool
  /-- Made by the display engine, which does not snoop LLC (R268). -/
  display : Bool
  va : Nat
  op : AccessOp
  /-- The parts of an atomic after the first, as address and length: an atomic that crosses a 4 KB boundary is one action on
  parts with a translation each (R570; filled by `access`). -/
  later : List (Nat × Nat)
  /-- Other bytes that the same request touches: of the same cache lines or cache request, outside what the client
  asked for (R1286, R1288). -/
  around : List Nat
  tag : Nat
  deriving DecidableEq, Repr

/-- A cache of the GPU that nobody snoops (R280, R1404): the one that serves the accesses of one client of one
engine. -/
structure CacheId where
  engine : Engine
  client : Client
  deriving DecidableEq, Repr

/-- Who reads or writes memory (R280): the host and peers; the display engine; the walkers of GAM; a GPU cache. -/
inductive Agent where
  | host | display | walker
  | gpu (c : CacheId)
  deriving DecidableEq, Repr

/-- What bytes of one 64-byte line were before a write (R280, R1404). -/
structure OldBytes where
  addr : Nat
  data : List Byte
  writer : Agent
  /-- The writer's cache may not have written the line back (R280(b)). -/
  held : Bool
  /-- A write that did not snoop the host's caches (R280(b)). -/
  unsnooped : Bool
  /-- The line may stand in LLC only (R268). -/
  inLlc : Bool
  /-- The caches that may have kept the line from before (R280(b)). -/
  cachedBy : List Agent
  /-- The caches invalidated since. -/
  fresh : List Agent
  deriving DecidableEq, Repr

/-- An `HDC.PAGEREQ` message (R742). -/
structure HdcReq where
  slice : BitVec 2
  hdc : BitVec 2
  vpage : BitVec 36
  write : Bool
  tracking : BitVec 8
  faultable : Bool
  deriving DecidableEq, Repr

/-- An `HDC.PAGERESP` message with opcode 00 (R744), with the fault model in the two mode bits (R1302). -/
structure HdcResp where
  slice : BitVec 2
  hdc : BitVec 2
  pa : BitVec 27
  write : Bool
  d : Bool
  code : FaultCode
  memType : MemType
  tracking : BitVec 8
  mode : FaultModel
  /-- The translation the response stands for; none where its PA is arbitrary (model's own, R1324). -/
  xlate : Option Xlate
  deriving DecidableEq, Repr

/-- The messages of the invalidation handshake (R746). -/
inductive HdcInvMsg where
  | start | ack (slice hdc : BitVec 2) | stop
  deriving DecidableEq, Repr

/-- A walk asked for as an operation. -/
structure WalkReq where
  engine : Option Engine
  ggtt : Bool
  client : Client
  mocs : Option (BitVec 6)
  acc : Acc
  va : Nat
  deriving DecidableEq, Repr

/-- A request that can wait (R1312, R1316), or a message that waits until the requests before it are done (R680,
R1316). -/
inductive Pending where
  | access (a : MemAccess)
  | hdc (r : HdcReq)
  | walk (r : WalkReq)
  | trtt (va : Nat)
  /-- A sample of a surface with an auxiliary surface (R413). `mainMapped`: its main tile is known to be mapped. -/
  | aux (main aux : Nat) (mainMapped : Bool)
  /-- Context Available, not yet answered (R680 step 1). -/
  | available (e : Engine)
  /-- The scheduler's wish to switch the context out (R684). -/
  | switchOut (e : Engine)
  deriving DecidableEq, Repr

/-- A request in the queue of waiting ones. -/
structure Waiter where
  req : Pending
  /-- Its fault is the one that hung or halted its engine. -/
  faulted : Bool
  /-- The fault was met by the read of the TR-TT table of this level (R1330). -/
  table : Option Nat
  deriving DecidableEq, Repr

/-- An outstanding page request (R116, R1318). `engine` is none for the LAST request of a context that is resident nowhere
(R1344 case 2), which no engine makes: so a reset of an engine is followed by no new record of it (R1384). -/
structure PageRequest where
  engine : Option Engine
  pasid : BitVec 20
  contextID : BitVec 32
  page : Nat
  acc : Acc
  code : FaultCode
  level : Level
  mode : FaultModel
  prgIndex : Nat
  last : Bool
  terminating : Bool
  /-- The host has taken the request (R1386). -/
  taken : Bool
  deriving DecidableEq, Repr

/-- The events posted to the host (R1346). -/
inductive Event where
  | hangReport (e : Engine) (f : PageFault)
  | trttInvalidTile (va : Nat)
  | streamFaultIRQ (e : Engine)
  | pageRequestVisible (r : PageRequest)
  | contextError (e : Option Engine) (pasid : BitVec 20) (contextID : BitVec 32) (k : ErrorKind)
  | faultsServiced (contextID : BitVec 32)
  | terminationComplete (contextID : BitVec 32)
  | terminationPending (contextID : BitVec 32)
  | invalidDescriptor (e : Engine)
  | contextReceiveReady (e : Engine)
  | contextConfirmed (e : Engine)
  /-- The answer to an invalidation-wait descriptor (R731). -/
  | invalidationWaited
  deriving DecidableEq, Repr

/-- The meanings of LRUM (R257); with TC = 00 the LRU control, an age, comes from the page table (R252). -/
inductive AgeRule where
  | uncoreCrs | assign0 | unchangedOnHit | assign3
  | pageTable (age : BitVec 2)
  deriving DecidableEq, Repr

/-- The cache controls an access ends with (R250). -/
structure MemControls where
  type : MemType
  target : TargetCache
  age : AgeRule
  allocateOnMiss : Bool
  snoop : Bool
  /-- Performed as uncacheable with a fence (R252, R282 item 6). -/
  fence : Bool
  /-- Class of service (R252). -/
  cos : BitVec 2
  /-- Whether the L3 caches the line (R246, R248). -/
  l3 : Bool
  deriving DecidableEq, Repr

/-- What a client gets back for an access: its identifiers, the data, the null indicator (R500), the fault code and
the two bits with the fault model (R1302, R1322). -/
structure ClientReturn where
  tag : Nat
  slice : BitVec 2
  client : Client
  data : List Byte
  null : Bool
  code : FaultCode
  mode : FaultModel
  /-- The access was performed, or completed as a null-page access; false for an invalid access (R1324) and for
  a faulted return. -/
  done : Bool
  ctl : Option MemControls
  /-- The controls with which the line leaves the L3: those of MOCS entry 63 for coherent L3 evictions (R244, R286). -/
  evict : Option MemControls
  deriving DecidableEq, Repr

/-- A queue per destination of the events of R1346. -/
structure EventQueues where
  driver : List Event
  scheduler : List Event
  iommu : List Event
  /-- Messages from GAM to the command streamers (R680, R682). -/
  commandStreamers : List Event
  deriving DecidableEq, Repr

/-! ### Registers -/

/-- The five TR-TT registers (R491 to R495). -/
structure TrttRegs where
  l3ptr : QWord
  nullDetect : DWord
  invalidDetect : DWord
  trvadr : DWord
  trtte : DWord
  deriving DecidableEq, Repr

/-- A fence record (R448). -/
structure Fence where
  valid : Bool
  base : Nat
  limit : Nat
  pitchTiles : Nat
  walkY : Bool
  deriving DecidableEq, Repr

/-- The writable PCI capability registers (R153, R157, R161, R162, R164, R168). -/
structure PciCaps where
  pasidControl : BitVec 16
  atsControl : BitVec 16
  pre : Bool
  stopped : Bool
  upgri : Bool
  rf : Bool
  opra : DWord
  deriving DecidableEq, Repr

/-- An entry of the private PAT (R262). -/
structure PatEntry where
  memtype : MemType
  target : TargetCache
  age : BitVec 2
  cos : BitVec 2
  deriving DecidableEq, Repr

/-- A range of physical addresses to which the OS's settings give a memory type for one PAT index (R264). -/
structure TypeRange where
  pat : BitVec 3
  lo : Nat
  hi : Nat
  type : MemType
  deriving DecidableEq, Repr

/-- A page request that an HDC waits for: its tracking number, and the page. -/
structure HdcAsked where
  tracking : BitVec 8
  vpage : BitVec 36
  deriving DecidableEq, Repr

/-- The state of one HDC's port (R114). -/
structure HdcPort where
  slice : BitVec 2
  hdc : BitVec 2
  outstanding : List HdcAsked
  deriving DecidableEq, Repr

/-- A mini-TLB entry of an HDC (R718): what a response gave it. -/
structure MiniTlbEntry where
  slice : BitVec 2
  hdc : BitVec 2
  vpage : BitVec 36
  pa : BitVec 27
  write : Bool
  d : Bool
  memType : MemType
  xlate : Xlate
  deriving DecidableEq, Repr

/-- The parameters of the model (R7, 92 section 2): fixed by the platform, taken by the model as data. -/
structure Params where
  haw : Nat
  gmadrBase : Nat
  gmadrSize : Nat
  gttmmadrBase : Nat
  gsmBase : Nat
  gsmSize : Nat
  dsmBase : Nat
  dsmSize : Nat
  topOfMemory : Nat
  mocsTable : PerEngine (BitVec 3)
  privatePat : List PatEntry
  effTypes : List TypeRange
  cd : Bool
  l3TlbSize : Nat
  gttCacheEnable : Bool
  mmio64KEnable : Bool
  trttBothBits : TrttResult
  /-- P2_UNORM: texel 0 in bits 1:0 of its byte (U19). -/
  p2LowFirst : Bool
  astc3D : Bool
  astcCheckVoidExtent : Bool
  ofsTrvattL3Ptr : Nat
  ofsTrNullDetect : Nat
  ofsTrInvalidDetect : Nat
  ofsTrvadr : Nat
  ofsTrtte : Nat
  ofsTrNullCount : Nat
  ofsAdNonWB : Nat
  pasidCapOfs : Nat
  atsCapOfs : Nat
  prsCapOfs : Nat
  /-- The HDCs there are, by slice and number (R740). -/
  hdcs : List (BitVec 2 × BitVec 2)
  deriving DecidableEq, Repr

/-- Whether every parameter is in the set that R7, R40, R41, R42 and R700 restrict it to. -/
def Params.ok (p : Params) : Bool :=
  [39, 46].contains p.haw
    && [0x8000000, 0x10000000, 0x20000000, 0x40000000, 0x80000000, 0x100000000].contains p.gmadrSize
    && p.gmadrBase % p.gmadrSize == 0 && p.gttmmadrBase % 0x1000000 == 0
    && [0x100000, 0x200000, 0x400000, 0x800000].contains p.gsmSize && p.gsmBase % p.gsmSize == 0
    && p.dsmSize % 0x2000000 == 0 && decide (p.dsmSize ≤ 0x100000000) && p.dsmBase % 0x1000 == 0
    && [640, 768].contains p.l3TlbSize
    && (match p.trttBothBits with | .mapped _ => false | .null => true | .invalid => true)

/-! ### Results of operations -/

/-- The value of one channel of a decoded texel. -/
inductive Chan where
  /-- `n / max`, an unsigned normalised value (R820, R822). -/
  | unorm (n max : Nat)
  /-- `n / max`, a signed normalised value (R854, R970). -/
  | snorm (n : Int) (max : Nat)
  /-- The bits of a half-precision float (R1023, R1137). -/
  | half (bits : BitVec 16)
  /-- An 8-bit sRGB value after `SrgbToLinear` (R850). -/
  | linear (v : BitVec 16)
  deriving DecidableEq, Repr

/-- A decoded texel. -/
structure Texel where
  r : Chan
  g : Chan
  b : Chan
  a : Chan
  deriving DecidableEq, Repr

/-- The answer of `MCS.DECODE` (R1258). -/
inductive McsResult where
  | clear
  | slice (s : Nat)
  deriving DecidableEq, Repr

/-- The answer of `ASTC.HEADER.PARSE` (R1152). `offset` is the file offset of the asked block, where the block
dimensions are ASTC's. -/
structure AstcHeader where
  bw : Nat
  bh : Nat
  bd : Nat
  numLods : Nat
  width : Nat
  height : Nat
  depth : Nat
  offset : Option Nat
  deriving DecidableEq, Repr

/-- The answer of `SURF.PAD` (R1289): the extended size in texels and rows, the bytes to add after it, and whether the
end is then rounded up to 64 bytes. -/
structure PadResult where
  width : Nat
  height : Nat
  extraBytes : Nat
  roundEnd : Bool
  deriving DecidableEq, Repr

/-- What an operation answers to its requester. -/
inductive Result where
  | none
  | address (a : Nat)
  | offset (o : BitVec 16)
  | trtt (r : TrttResult)
  | xlate (x : Xlate)
  | pageFault (c : FaultCode) (l : Level)
  | waits
  | error (k : ErrorKind)
  | qword (old new : QWord)
  | hdc (r : HdcResp)
  | dropped
  | texel (t : Texel)
  /-- The two pixels of a packed YUV 4:2:2 DWord (R881). -/
  | texels (t0 t1 : Texel)
  /-- A 24-bit palette colour with its own alpha (R827). -/
  | paletteRgb (rgb : BitVec 24) (a : Chan)
  /-- A 32-bit palette colour (R831). -/
  | argb (v : DWord)
  | mcs (r : McsResult)
  /-- An array slice (R1266, R1268). -/
  | slice (n : Nat)
  | astcHeader (h : AstcHeader)
  | pad (p : PadResult)
  /-- The response to a sample of a surface with an auxiliary surface (R413): normal, or NULL with a sample of all
  zeros. -/
  | sampleNormal
  | sampleNull (t : Texel)
  /-- Numbers, in the order the question names them. -/
  | numbers (ns : List Nat)
  deriving DecidableEq, Repr

/-! ### Questions of the sampling engine and the data port about a surface -/

/-- The formats with a compression block, by the rows of the tables of R1206 and R1285. -/
inductive FormatClass where
  /-- Uncompressed; the alignment comes from the state fields. -/
  | plain (bytes i j : Nat)
  /-- ETC1, ETC2_RGB8, EAC_R11, DXT1, BC4 -/
  | block64
  /-- ETC2_EAC, EAC_RG11, BC2, BC3, BC5, BC6H, BC7 -/
  | block128
  | fxt1
  /-- The footprint, with depth 1 for a 2D format (R1083). -/
  | astc (bw bh bd : Nat)
  /-- D16_UNORM, and the other depth formats, of 3DSTATE_DEPTH_BUFFER -/
  | depth16
  | depth (bytes : Nat)
  | stencil
  deriving DecidableEq, Repr

/-- The depth buffer formats (R896). -/
inductive DepthFormat where
  | d32FloatS8X24 | d32Float | d24UnormS8 | d16Unorm
  deriving DecidableEq, Repr

/-- The memory organisations of a planar surface (R882, R884): contiguous planes with half-pitch or full-pitch chroma;
full-pitch chroma with U and V interleaved in one plane below Y (NV12); or three planes with addresses of their own, the
chroma planes with half the pitch of Y. -/
inductive PlanarLayout where
  | halfPitch (base pitch yHeight vHeight : Nat)
  | fullPitch (base pitch yHeight vHeight : Nat)
  | interleaved (base pitch yHeight : Nat)
  | separate (uBase vBase yPitch : Nat)
  deriving DecidableEq, Repr

/-- An ASTC map: size in texels and block footprint (R1088). -/
structure AstcMap where
  width : Nat
  height : Nat
  depth : Nat
  bw : Nat
  bh : Nat
  bd : Nat
  deriving DecidableEq, Repr

/-- What the rules of spec/45, spec/48 and spec/49 compute for a client without a row of the opcode table. -/
inductive Query where
  /-- The channel values of a pixel whose format name lists channels of these bit counts (R820). -/
  | channels (widths : List Nat) (pixel : Nat)
  /-- The texel of an intensity or a luminance value (R821, R822). -/
  | intensity (v : Chan)
  | luminance (v : Chan) (alpha : Option Chan)
  /-- The address of a chroma sample (R884). `uBelow`: U is directly below Y. -/
  | chroma (l : PlanarLayout) (uBelow planeU : Bool) (x y bytes : Nat)
  /-- Depth and stencil of a pixel (R896). -/
  | depthPixel (f : DepthFormat) (pixel : Nat)
  /-- The address of a stencil value, one byte in Tile-W (R897). -/
  | stencilByte (base pitchTiles x y : Nat)
  /-- Texel `x` of a row of an R1_UNORM or MONO8 surface (R824). -/
  | r1Texel (row : List Byte) (x : Nat)
  /-- The texel at a position of the 8 x 4 texels of an FXT1 block (R924). -/
  | fxt1Texel (block : BitVec 128) (x y : Nat)
  /-- The element of a texel, the texel inside it, the element's bytes, and the texel's number in an FXT1 block (R1206,
  R1092, R1112, R924). -/
  | element (f : FormatClass) (u v r : Nat)
  /-- The alignment unit of a surface that is not a tiled resource (R1285). -/
  | alignUnit (f : FormatClass)
  /-- Number of a block in its LOD, and blocks in the LOD (R1088). -/
  | astcBlock (m : AstcMap) (lod bx bY bz : Nat)
  /-- Row bytes, rows, slabs and padded number of blocks of a LOD (R1091). -/
  | astcRows (m : AstcMap) (lod : Nat)
  /-- U and V offset of a slab of a LOD (R1090). -/
  | astcSlab (m : AstcMap) (lod q : Nat)
  /-- Bits of an MCS element of a surface of `2^n` samples (R1252). -/
  | mcsBits (samplesLog : Nat)
  /-- Slice of a texel of a quilted texture and its position there (R1266). -/
  | quiltTexel (width height quiltWidth quiltHeight r x y : Nat)
  /-- Depth of a LOD of a 3D surface, its aligned depth, and that in blocks of `s` slices (R1271). `tiling`: TileYS if
  true, TileYF if false, none for TRMODE NONE (R1278); the element has `2^bytesLog` bytes. -/
  | depth3D (depth : Nat) (tiling : Option Bool) (bytesLog s lod : Nat)
  /-- Offset of a byte of the CCS of a 3D surface: its size and alignment in bytes and rows (R1274). -/
  | ccs3D (width height i j pitch qpitch lod u v r : Nat)
  deriving DecidableEq, Repr

/-! ### Inputs -/

/-- The destinations of events (R1346). -/
inductive EventDest where
  | driver | scheduler | iommu | commandStreamers
  deriving DecidableEq, Repr

/-- One action of an agent of R6, in the order the agents issue them. Log entry 1 says how they come to be here. -/
inductive Input where
  /-- A request for an operation of the opcode table, as a record of bytes. -/
  | op (record : List Byte)
  /-- A translated access of a GPU client or of the display engine (R570). -/
  | access (a : MemAccess)
  /-- A host read or write at a system address (R212, R214, R216). -/
  | hostRead (addr n : Nat)
  | hostWrite (addr : Nat) (data : List Byte)
  /-- A locked read-modify-write of the host (R794). -/
  | hostAtomic (addr n : Nat) (f : RmwFun)
  /-- A peer or external PEG device: write only, through the aperture (R207). -/
  | peerWrite (addr : Nat) (data : List Byte)
  /-- A command streamer's register write or read (R36(e), R62, R228). -/
  | csRegWrite (e : Engine) (ofs : Nat) (v : DWord)
  | csRegRead (e : Engine) (ofs : Nat)
  /-- The command streamer writes the five descriptor registers (R680 step 2). -/
  | csDescriptor (e : Engine) (d : Descriptor)
  /-- The MI_update_GTT command: the GPU-side write of a GGTT entry (R222, R539). -/
  | csUpdateGtt (va : Nat) (pte : QWord)
  /-- Host configuration cycles to device 2 (R150). -/
  | cfgRead (ofs n : Nat)
  | cfgWrite (ofs n : Nat) (v : Nat)
  /-- Host software sets a fence (R100). -/
  | setFence (i : BitVec 4) (f : Fence)
  /-- IOMMU software writes the context and PASID entries of one PASID (R668, R111). -/
  | setIommu (x : IommuEntry)
  /-- The OS sets the inputs of the effective memory type (R264), which are fixed while a context is resident. -/
  | setTypes (ts : List TypeRange) (cd : Bool)
  /-- Software defines the private PAT (R84, R262). -/
  | setPrivatePat (ts : List PatEntry)
  /-- Host software sets the 64 KB-page enable and the GTT-cache enable, to which the spec gives no offset (R106,
  R108, R724). -/
  | setControls (mmio64K gttCache : Bool)
  /-- Firmware or OS programs the two BARs (R40, R41). -/
  | setBars (gmadr gttmmadr : Nat)
  /-- The command stream loads a palette entry (R130). -/
  | loadPalette (i : BitVec 8) (v : DWord)
  /-- Device 0 sets the contents of MCHBAR registers (R104, R132). -/
  | setMchbar (k : Nat) (data : List Byte)
  /-- Page response (R1318). -/
  | pageResponse (pasid : BitVec 20) (prgIndex : Nat) (rc : BitVec 4)
  /-- The MMIO-based continue of fault and hang (R1312). -/
  | faultContinue (e : Engine)
  | engineReset (e : Engine)
  | flr
  | busReset
  /-- The host reads and empties an event queue (R1346). -/
  | takeEvents (d : EventDest)
  /-- A sample of a tiled resource with an auxiliary surface (HiZ, CCS, MCS): the addresses of the two (R413). -/
  | auxSample (main aux : Nat)
  /-- A question about the layout of a surface or a pixel. -/
  | query (q : Query)
  /-- The scheduler switches the resident context out (R684), or terminates it (R1344 step 4). -/
  | switchOut (e : Engine)
  | terminate (contextID : BitVec 32)
  /-- Commands of other volumes that write a cache back, invalidate one, and flush LLC (R268, R280, R292, R1404). -/
  | flushCache (c : CacheId)
  | invalidateCache (c : CacheId)
  | flushLlc
  /-- The host writes its own caches back and drops them (R280(b)). -/
  | hostFlush
  /-- An invalidation-wait descriptor (R731). -/
  | invalidationWait
  deriving DecidableEq, Repr

/-! ### The state -/

/-- Everything GAM keeps per engine (R110, R112, R120, R1311). -/
structure EngineState where
  desc : Descriptor
  ctx : Option Ctx
  run : RunState
  needsReset : Bool
  /-- A TR-TT table read has been lost: only a reset ends the need of one (R505, R1330). -/
  lostTable : Bool
  streamFaultCount : Nat
  facts : List Fact
  /-- An engine reset waits for the host to take page requests (R1386). -/
  resetPending : Bool
  deriving DecidableEq, Repr

/-- A context that is resident nowhere: the engine it has left, its PASID and its ID (R1336). -/
structure AwayContext where
  engine : Engine
  pasid : BitVec 20
  contextID : BitVec 32
  deriving DecidableEq, Repr

/-- The machine state (R30). -/
structure State where
  /-- The agents' actions still to happen, oldest first (model's own; log entry 1). -/
  inbox : List Input
  /-- Physical memory (R200): the canonical list of `Memory.wf`. -/
  mem : List Host.Cell
  /-- What recent writes replaced, newest first, as long as some agent may still see it (R280, R1404). -/
  oldBytes : List OldBytes
  /-- The lines that a cache may hold, by line number (R280(b)). -/
  cachedLines : List (Agent × Nat)
  par : Params
  engines : PerEngine EngineState
  /-- Facts remembered for accesses of no engine (aperture, display). -/
  sharedFacts : List Fact
  /-- IOMMU structures in host memory, as inputs (R668). -/
  iommu : List IommuEntry
  /-- `PASID_State` (R118): PASIDs with a non-zero count. -/
  pasidState : List (BitVec 20 × Nat)
  /-- The live TR-TT registers (R70) and the copies saved with contexts (R497). -/
  trtt : TrttRegs
  trttSaved : List (BitVec 32 × TrttRegs)
  /-- The memory interface control registers saved with contexts, by engine (R252). -/
  mocsSaved : List ((Engine × BitVec 32) × List DWord)
  /-- The L3 control registers saved with contexts of the render engine (R252). -/
  l3Saved : List (BitVec 32 × List (BitVec 16))
  nullTileCount : Nat
  /-- The cache controls of the last TR-TT table read: those of MOCS entry 62 (R244, R290). -/
  walkerCtl : Option MemControls
  /-- The TR-TT bypass register at 0x4DFC (R72). -/
  reg4DFC : DWord
  reg404C : DWord
  reg4A30 : DWord
  adNonWB : DWord
  /-- The private PAT registers 0x40E0 to 0x40EC as storage (R84). -/
  reg40E0 : DWord
  reg40E4 : DWord
  reg40E8 : DWord
  reg40EC : DWord
  /-- 64 L3 control entries (R80) and 8 x 64 memory interface control registers (R82). -/
  l3Control : List (BitVec 16)
  gamt : List DWord
  fences : List Fence
  /-- The contents of MCHBAR, an input (R104, R132). -/
  mchbar : List Host.Cell
  pci : PciCaps
  outstanding : List PageRequest
  /-- Contexts that are resident nowhere and marked bad (R1328, R1336). -/
  badContexts : List (BitVec 32)
  /-- Advanced contexts that have left their engine and are not terminated: those of a PASID that a response failure
  still meets (R1336). -/
  awayContexts : List AwayContext
  /-- Contexts bad by a response failure: not promoted (R1336, R1340). -/
  failedContexts : List (BitVec 32)
  /-- The next unused PRG Index (R1318). -/
  nextPrg : Nat
  /-- `MissPipelineBlocked` (R1316): the engine whose fault blocks it. -/
  missBlocked : Option Engine
  /-- Requests that wait, in arrival order (R1316). -/
  waiting : List Waiter
  hdcPorts : List HdcPort
  /-- Requests that HDCs hold back for want of a credit (R740). -/
  hdcQueue : List HdcReq
  miniTlb : List MiniTlbEntry
  /-- Page responses on the broadcast bus that no HDC has claimed yet (R744). -/
  hdcResponses : List HdcResp
  /-- The invalidation handshake: in progress, and the HDCs that have acknowledged (R746). -/
  hdcInvalidating : Bool
  hdcAcks : List (BitVec 2 × BitVec 2)
  palette : List DWord
  events : EventQueues
  /-- Completed accesses, newest last. -/
  returns : List ClientReturn
  /-- Result of the last operation (model's own). -/
  out : Result
  /-- Value of the last host, configuration or command-streamer read (model's own). -/
  hostData : List Byte
  /-- Counter the free values are applied to (model's own). -/
  freeCount : Nat
  deriving DecidableEq, Repr

/-! ### Reasons to stop -/

/-- Why the machine stops with a fault. -/
inductive Fault where
  /-- A host access to a physical address at or above `2^HAW`, which does not exist (R200, R7). Raised by host reads
  and writes. Safe. -/
  | noSuchAddress
  deriving DecidableEq, Repr

/-- Why an operation or an agent's action is refused. Every constructor but the first two names a point the spec
puts outside the model's domain (spec/93_implementation_defined.md, treatment "refuse"). All are safe: the model
stops where the spec promises nothing. -/
inductive Refusal where
  /-- An instruction without a meaning. Raised by `exec` only. Safe. -/
  | notModelled (mnemonic : String)
  /-- A record that no row of the opcode table has. Raised by `step`. Safe. -/
  | undecodable
  /-- The engine has no resident context: it issues no translated access (R110). Safe. -/
  | noResidentContext
  /-- The resident context does not select this walker (R349, R571), or an address outside TR-VA space not TRTT.WALK (R498,
  R508). Safe. -/
  | wrongMode
  /-- Address bits above the supported range (U4, R480). Safe. -/
  | vaOutOfRange
  /-- A GGTT index beyond `GSM_SIZE / 8` (U9, R539). Safe. -/
  | ggttBeyondGsm
  /-- TR-TT in a GGTT or 32-bit context, or TR-TT tables inside TR-VA (U5, R490). Safe. -/
  | trttInvalidProgramming
  /-- `TRVAMV` other than 0000 and 1111 (U6, R494). Safe. -/
  | trvaMask
  /-- Null and invalid detection values equal with TR-TT on (U7, R502). Safe. -/
  | detectValuesEqual
  /-- Null or invalid tile on a Tile-X surface (U8, R503). Safe. -/
  | nullTileOnTileX
  /-- Descriptor fault model reserved or not of the context type (U10, R665). Safe. -/
  | faultModelField
  /-- GTT cache enabled with an advanced context or large pages (U11, R724). Safe. -/
  | gttCacheEnabled
  /-- GTTMMADR offsets 2 MB to 8 MB (U14, R216). Safe. -/
  | gttmmadrReserved
  /-- Host access to stolen memory by physical address (U15, R222). Safe. -/
  | stolenMemory
  /-- A translated address at or above top of memory or inside a BAR (U16, R230), or a directly specified physical
  address outside the range of its type in the table of R230. Safe. -/
  | physicalRange
  /-- A write or an atomic of a client that only reads (R207). Safe. -/
  | readOnlyClient
  /-- An advanced context with nested translation, which is out of scope (R1348, R5). Safe. -/
  | nestedTranslation
  /-- MOCS index 62 or 63 used by a client (U17, R244). Safe. -/
  | mocsReserved
  /-- Base address, pitch or placement not as the tiling requires (U1, R402). Safe. -/
  | surfaceMisaligned
  /-- Auxiliary tile unmapped while the main tile is mapped (U2, R416). Safe. -/
  | auxTileUnmapped
  /-- Two enabled fences overlap at the address (U3, R448). Safe. -/
  | fencesOverlap
  /-- An MMIO or configuration offset of other volumes (U42, R52). Safe. -/
  | unlistedRegister
  /-- An access of the MCHBAR window that is not an aligned Word, DWord or QWord (R104, R228). Safe. -/
  | mchbarAccess
  /-- Advanced context with PASIDE = 0 (U43, R111). Safe. -/
  | pasidDisabled
  /-- PFM field 001 to 111 (U48, R1308). Safe. -/
  | pfmReserved
  /-- Coherent HDC access in a context with fault model 01 (U49, R1310). Safe. -/
  | coherentNeedsStream
  /-- A 9-bit ASTC format value that is not in the table (U34, R1083). Safe. -/
  | notAFormat
  /-- A 3D ASTC format without `ASTC_3D_SUPPORTED` (U32, R1080). Safe. -/
  | astc3DUnsupported
  /-- A surface that places an element at an offset of 2^38 or more (U35, R1200). Safe. -/
  | offsetTooLarge
  /-- Structured buffer offset `V` not a multiple of 4 (U38, R1205). Safe. -/
  | structuredOffset
  deriving DecidableEq, Repr

/-! ### Reset values -/

/-- The default of L3 control entry `i`: the printed table, period 16 (R247). -/
def l3Default (i : Nat) : BitVec 16 :=
  match i % 16 with
  | 1 => 0x0010 | 2 => 0x0013 | 3 => 0x0017 | 4 => 0x001F | 5 => 0x0020 | 6 => 0x0013 | 7 => 0x0017
  | 8 => 0x001F | 9 => 0x0030 | 10 => 0x0013 | 11 => 0x0017 | 12 => 0x001F | _ => 0x0000

/-- The default of memory interface control entry `i` of every engine table (R254). -/
def gamtDefault (i : Nat) : DWord :=
  match i % 16 with
  | 0 => 0x30 | 1 => 0x34 | 2 => 0x38 | 3 => 0x31 | 4 => 0x32 | 5 => 0x36 | 6 => 0x3A | 7 => 0x33
  | 8 => 0x37 | 9 => 0x3B | 10 => 0x32 | 11 => 0x36 | 12 => 0x3A | 13 => 0x33 | 14 => 0x37 | _ => 0x3B

/-- The 64 reset values of the L3 control registers (R1392). -/
def l3Reset : List (BitVec 16) := (List.range 64).map l3Default

/-- The 512 reset values of the memory interface control registers (R1392). -/
def gamtReset : List DWord := (List.range 512).map (fun k => gamtDefault (k % 64))

/-- The TR-TT registers at reset: all fields 0 (R70). -/
def TrttRegs.reset : TrttRegs :=
  { l3ptr := 0, nullDetect := 0, invalidDetect := 0, trvadr := 0, trtte := 0 }

/-- A fence that is not in force (R100, D51). -/
def Fence.off : Fence := { valid := false, base := 0, limit := 0, pitchTiles := 0, walkY := false }

/-- The PCI capability registers at reset (R153, R157, R161, R162, R164). -/
def PciCaps.reset : PciCaps :=
  { pasidControl := 0, atsControl := 0, pre := false, stopped := false, upgri := false, rf := false, opra := 0 }

/-- Descriptor registers: the spec's default is unknown ("Xh", R60); DESIGN CHOICE zero, log entry 7. -/
def Descriptor.reset : Descriptor := { element := 0, pdp0 := 0, pdp1 := 0, pdp2 := 0, pdp3 := 0 }

/-- An engine at reset: idle, no resident context, empty caches (R1381). -/
def EngineState.reset : EngineState :=
  { desc := .reset, ctx := none, run := .idle, needsReset := false, lostTable := false, streamFaultCount := 0, facts := [],
    resetPending := false }

/-- No event posted. -/
def EventQueues.empty : EventQueues := { driver := [], scheduler := [], iommu := [], commandStreamers := [] }

/-- The same value for every engine. -/
def PerEngine.all {α : Type} (v : α) : PerEngine α := ⟨v, v, v, v, v⟩

/-- The private PAT: the spec gives no layout and no reset value (R84); DESIGN CHOICE, log entry 8. -/
def privatePatReset : List PatEntry :=
  List.replicate 8 { memtype := .wb, target := .llcEllc, age := 3, cos := 0 }

/-- The parameters right after reset (R7; 92 section 2). Log entries 8 and 9 name each value the spec leaves open. -/
def Params.reset : Params :=
  { haw := 39
    gmadrBase := 0x4000000000
    gmadrSize := 0x10000000
    gttmmadrBase := 0x5000000000
    gsmBase := 0x7C000000
    gsmSize := 0x800000
    dsmBase := 0x7E000000
    dsmSize := 0x2000000
    topOfMemory := 0x2000000000
    mocsTable := ⟨0, 1, 2, 3, 4⟩
    privatePat := privatePatReset
    effTypes := []
    cd := false
    l3TlbSize := 640
    gttCacheEnable := false
    mmio64KEnable := false
    trttBothBits := .invalid
    p2LowFirst := true
    astc3D := false
    astcCheckVoidExtent := true
    ofsTrvattL3Ptr := 0x4DE0
    ofsTrNullDetect := 0x4DE8
    ofsTrInvalidDetect := 0x4DEC
    ofsTrvadr := 0x4DF0
    ofsTrtte := 0x4DF4
    ofsTrNullCount := 0x4DF8
    ofsAdNonWB := 0x4AB8
    pasidCapOfs := 0x100
    atsCapOfs := 0x200
    prsCapOfs := 0x300
    hdcs := [(0, 0), (0, 1), (0, 2)] }

/-- The machine right after reset (R180, R1380, R1381). Registers whose value the spec does not state hold the value
named in log entries 7 to 10. -/
def State.reset : State :=
  { inbox := []
    mem := []
    oldBytes := []
    cachedLines := []
    par := .reset
    engines := .all .reset
    sharedFacts := []
    iommu := []
    pasidState := []
    trtt := .reset
    trttSaved := []
    mocsSaved := []
    l3Saved := []
    nullTileCount := 0
    walkerCtl := none
    reg4DFC := 0
    reg404C := 0
    reg4A30 := 0
    adNonWB := 0
    reg40E0 := 0
    reg40E4 := 0
    reg40E8 := 0
    reg40EC := 0
    l3Control := l3Reset
    gamt := gamtReset
    fences := List.replicate 16 .off
    mchbar := []
    pci := .reset
    outstanding := []
    badContexts := []
    awayContexts := []
    failedContexts := []
    nextPrg := 0
    missBlocked := none
    waiting := []
    hdcPorts := []
    hdcQueue := []
    miniTlb := []
    hdcResponses := []
    hdcInvalidating := false
    hdcAcks := []
    palette := List.replicate 256 0
    events := .empty
    returns := []
    out := .none
    hostData := []
    freeCount := 0 }

end Sys2Proof.Machine
end

