-- ==== Sys2Proof/Machine/Memory.lean ====
section
/-! DEFINITION. Physical memory (spec/20_memory.md R200 to R202): a canonical list of cells, and the `MemRead`,
`MemWrite` and `AtomicRMW` primitives of spec/00_scope.md R9. -/
namespace Sys2Proof.Machine

/-- What a byte nothing has written reads as: memory is unspecified at power-on (R1382); DESIGN CHOICE 0, log
entry 11. -/
def absentByte : Byte := 0

/-- The byte at an address. -/
def Memory.read : List Host.Cell → Nat → Byte
  | [], _ => absentByte
  | (k, b) :: m, a => if k = a then b else if a < k then absentByte else Memory.read m a

/-- Write one byte, keeping the canonical form: an absent byte is not listed. -/
def Memory.write : List Host.Cell → Nat → Byte → List Host.Cell
  | [], a, v => if v = absentByte then [] else [(a, v)]
  | (k, b) :: m, a, v =>
    if k = a then (if v = absentByte then m else (a, v) :: m)
    else if a < k then (if v = absentByte then (k, b) :: m else (a, v) :: (k, b) :: m)
    else (k, b) :: Memory.write m a v

/-- Every address is above `lo`, addresses rise strictly, and no entry is an absent byte. -/
def Memory.wfFrom : Nat → List Host.Cell → Bool
  | _, [] => true
  | lo, (k, b) :: m => decide (lo ≤ k) && decide (b ≠ absentByte) && Memory.wfFrom (k + 1) m

/-- The canonical form of memory. -/
def Memory.wf (m : List Host.Cell) : Bool := Memory.wfFrom 0 m

/-- The `n` bytes from address `a` on. -/
def Memory.readBytes (m : List Host.Cell) (a : Nat) : Nat → List Byte
  | 0 => []
  | n + 1 => Memory.read m a :: Memory.readBytes m (a + 1) n

/-- Store bytes from address `a` on. -/
def Memory.writeBytes (m : List Host.Cell) (a : Nat) : List Byte → List Host.Cell
  | [] => m
  | b :: bs => Memory.writeBytes (Memory.write m a b) (a + 1) bs

/-- `MemRead(addr, n)` as an unsigned number, little-endian (R9, R200). -/
def memRead (s : State) (a n : Nat) : Nat := leNat (Memory.readBytes s.mem a n)

/-- A QWord read: `MemRead(addr, 8)`. -/
def memReadQ (s : State) (a : Nat) : QWord := BitVec.ofNat 64 (memRead s a 8)

/-- Store bytes at a physical address. -/
def memStore (s : State) (a : Nat) (bs : List Byte) : State :=
  { s with mem := Memory.writeBytes s.mem a bs }

/-! ### What a write replaces (R280, R1404) -/

/-- How a write reaches memory: by whom, whether the writer's cache may hold it back, whether it left the host's caches
unsnooped, and whether the line goes to LLC. -/
structure WriteVia where
  writer : Agent
  held : Bool
  unsnooped : Bool
  inLlc : Bool
  deriving DecidableEq, Repr

/-- A write of GAM itself: at once in memory. -/
def WriteVia.walker : WriteVia := { writer := .walker, held := false, unsnooped := false, inLlc := false }

/-- A write of the host, or of a peer: its caches may hold it back from accesses that do not snoop them. -/
def WriteVia.host : WriteVia := { writer := .host, held := true, unsnooped := false, inLlc := true }

/-- The bytes from `a` on, cut at 64-byte lines; `fuel` bounds the number of lines. -/
def linePieces : Nat → Nat → List Byte → List (Nat × List Byte)
  | 0, _, _ => []
  | fuel + 1, a, d =>
    if d = [] then []
    else (a, d.take (64 - a % 64)) :: linePieces fuel (a + (64 - a % 64)) (d.drop (64 - a % 64))

/-- The caches that may hold a line. -/
def cachers (s : State) (line : Nat) : List Agent :=
  (s.cachedLines.filter (fun p => p.2 == line)).map Prod.fst

/-- The record of each line that a write is about to change, newest first. -/
def oldRecords (s : State) (w : WriteVia) (a n : Nat) : List OldBytes :=
  ((linePieces n a (Memory.readBytes s.mem a n)).map (fun p =>
    { addr := p.1, data := p.2, writer := w.writer, held := w.held, unsnooped := w.unsnooped, inLlc := w.inLlc,
      cachedBy := cachers s (p.1 / 64), fresh := [] })).reverse

/-- Store bytes, keeping what they were (R280, R1404). -/
def storeSeen (s : State) (w : WriteVia) (a : Nat) (d : List Byte) : State :=
  { memStore s a d with oldBytes := oldRecords s w a d.length ++ s.oldBytes }

/-- `MemWrite(addr, 8, v)` of GAM. -/
def memWriteQ (s : State) (a : Nat) (v : QWord) : State := storeSeen s .walker a (leBytes 8 v.toNat)

/-- `AtomicRMW(addr, 8, f)`: the old and the new value, and a store only if they differ (R9). -/
def atomicRmwQ (s : State) (a : Nat) (f : QWord → QWord) : (QWord × QWord) × State :=
  let old := memReadQ s a
  let new := f old
  ((old, new), if new = old then s else memWriteQ s a new)

/-- `n` arbitrary bytes (R1324), and the counter moved past them. -/
def freeBytes (s : State) : Nat → List Byte × State
  | 0 => ([], s)
  | n + 1 =>
    let r := freeBytes { s with freeCount := s.freeCount + 1 } n
    (Config.freeByte s.freeCount :: r.1, r.2)

/-- An arbitrary QWord (R1330: the value of a table read that cannot be made). -/
def freeQ (s : State) : QWord × State :=
  let r := freeBytes s 8
  (BitVec.ofNat 64 (leNat r.1), r.2)

/-- An arbitrary choice of the hardware (R702). -/
def freeChoice (s : State) : Bool × State :=
  (Config.freeBool s.freeCount, { s with freeCount := s.freeCount + 1 })

end Sys2Proof.Machine
end

