-- ==== Sys2Proof/Machine/Flags.lean ====
section
/-! DEFINITION. The flag bits of paging entries and every rule that computes or tests them (spec/10_state.md R33):
the Accessed, Dirty and Extended-Accessed updates of the atomic ALU (spec/44_atomics.md R752) and the access rights
of advanced contexts (spec/42_page_walks.md R590 to R601). -/
namespace Sys2Proof.Machine

/-- Bit 0 Present, bit 1 R/W, bit 7 page size of an entry (R512). -/
def entryP (e : QWord) : Bool := bit e 0
def entryRW (e : QWord) : Bool := bit e 1
def entryUS (e : QWord) : Bool := bit e 2
def entryPWT (e : QWord) : Bool := bit e 3
def entryPCD (e : QWord) : Bool := bit e 4
def entryA (e : QWord) : Bool := bit e 5
def entryD (e : QWord) : Bool := bit e 6
def entryPS (e : QWord) : Bool := bit e 7
/-- Bit 9 of a legacy leaf entry: Null (R526). -/
def entryNull (e : QWord) : Bool := bit e 9
/-- Bit 11 of a pointer PDE: IPS (R521). -/
def entryIPS (e : QWord) : Bool := bit e 11
def entryXD (e : QWord) : Bool := bit e 63

/-- The bit values of the flags (spec/44_atomics.md section 2). -/
def flagA : QWord := 0x20
def flagD : QWord := 0x40
def flagEA : QWord := 0x400

/-- The bits one atomic page update ORs into an entry (R752). -/
def pageUpdateMask (i wp ea w : Bool) (old : QWord) : QWord :=
  let leafLike := !i || entryPS old
  let refused := w && wp && !entryRW old
  if !entryP old then 0
  else if refused && !leafLike then 0
  else flagA ||| (if ea then flagEA else 0) ||| (if w && leafLike && !refused then flagD else 0)

/-- The new value of the entry (R752). -/
def pageUpdate (i wp ea w : Bool) (old : QWord) : QWord := old ||| pageUpdateMask i wp ea w old

/-- `AtomicPageUpdate` on the QWord at `addr` (R752): old value, new value. -/
def atomicPageUpdate (s : State) (i wp ea w : Bool) (addr : Nat) : (QWord × QWord) × State :=
  atomicRmwQ s addr (pageUpdate i wp ea w)

/-- The simplified read update of the un-opcoded set (R783): A is set in a present entry. -/
def accessedUpdate (old : QWord) : QWord := if entryP old then old ||| flagA else old

/-- The simplified write update of the un-opcoded set (R787): A and D are set in a present, writable entry. -/
def accessedDirtyUpdate (old : QWord) : QWord :=
  if entryP old && entryRW old then old ||| (flagA ||| flagD) else old

/-- "Write requests and Atomics requests" are one class (R570). -/
def isWrite (a : Acc) : Bool :=
  match a with
  | .read => false
  | .fetch => false
  | .write => true
  | .atomic => true

/-- `Access` of an operation (R570). -/
def AccessOp.acc : AccessOp → Acc
  | .vread _ => .read
  | .vfetch _ => .fetch
  | .vwrite _ => .write
  | .vatomic _ _ => .atomic

/-- An instruction fetch (R570). -/
def Acc.isFetch (a : Acc) : Bool :=
  match a with
  | .read => false
  | .fetch => true
  | .write => false
  | .atomic => false

/-- The rights accumulated over the entries of a walk (R600). -/
structure Rights where
  rw : Bool
  us : Bool
  xd : Bool
  anySup : Bool
  deriving DecidableEq, Repr

/-- Before any entry (R578). -/
def Rights.start : Rights := { rw := true, us := true, xd := false, anySup := false }

/-- Fold one entry in (R578 `Check`). -/
def Rights.fold (r : Rights) (e : QWord) : Rights :=
  { rw := r.rw && entryRW e, us := r.us && entryUS e, xd := r.xd || entryXD e, anySup := r.anySup || !entryUS e }

/-- The qualified inputs of the rights table for one access (R111, R600, R603). -/
structure RightsCtl where
  supervisor : Bool
  fetch : Bool
  nxe : Bool
  smep : Bool
  w : Bool
  wp : Bool
  ea : Bool
  deriving DecidableEq, Repr

/-- `ctx.supervisor and SRE`, `acc.fetch and ERE`, `WPE or not supervisor` (R111, R603, D19). -/
def rightsCtl (c : Ctx) (a : Acc) : RightsCtl :=
  let sup := c.supervisor && c.iommu.sre
  { supervisor := sup
    fetch := a.isFetch && c.iommu.ere
    nxe := c.iommu.nxe
    smep := c.iommu.smep
    w := isWrite a
    wp := c.iommu.wpe || !sup
    ea := c.iommu.eafe }

/-- `RightsSoFar` (R600): the code of the first right already violated, in the order of R591. -/
def rightsSoFar (q : RightsCtl) (r : Rights) : FaultCode :=
  if !q.supervisor && !r.us then .privilege
  else if q.fetch && q.nxe && r.xd then .privilege
  else if q.w && q.wp && !r.rw then .writePermission
  else .noFault

/-- `RightsFinal` (R600): the SMEP test after the leaf entry. -/
def rightsFinal (q : RightsCtl) (r : Rights) : FaultCode :=
  if q.fetch && q.supervisor && q.smep && !r.anySup then .privilege else .noFault

/-- `Check` of R578: Present, reserved bits, rights so far, in the order of R591. The rights are answered with the
code; the code is `noFault` when the entry may be used. -/
def checkEntry (q : RightsCtl) (r : Rights) (reserved : Nat) (e : QWord) : FaultCode × Rights :=
  if !entryP e then (.notPresent, r)
  else if e.toNat &&& reserved ≠ 0 then (.notPresent, r)
  else
    let r' := r.fold e
    (rightsSoFar q r', r')

/-- `LegacyWriteCheck` (R596). -/
def legacyWriteCheck (leaf : QWord) (a : Acc) : FaultCode :=
  if isWrite a && !entryRW leaf then .writePermission else .noFault

/-- The 2-bit fault code (R1302). -/
def FaultCode.code : FaultCode → BitVec 2
  | .noFault => 0
  | .notPresent => 1
  | .privilege => 2
  | .writePermission => 3

/-- The 3-bit MTRR code of a memory type (R745). -/
def MemType.code : MemType → BitVec 3
  | .uc => 0
  | .wc => 1
  | .wt => 4
  | .wp => 5
  | .wb => 6

/-- The type that a read, or a write, of memory of a type has: WP is "Reads:WB and Writes:WC" (R745). -/
def MemType.ofAccess (t : MemType) (write : Bool) : MemType :=
  match t with
  | .uc => .uc
  | .wc => .wc
  | .wt => .wt
  | .wp => if write then .wc else .wb
  | .wb => .wb

/-- "HDC to L3 Control[3:2]" for a memory type (R745). -/
def MemType.l3Control (t : MemType) (write : Bool) : BitVec 2 :=
  match t with
  | .uc => 0
  | .wc => 1
  | .wt => 2
  | .wp => if write then 1 else 3
  | .wb => 3

/-- The L3 may allocate a line under these two bits: WT and WB (R264, R745). -/
def MemType.l3Allocates (t : MemType) (write : Bool) : Bool := decide (2 ≤ (t.l3Control write).toNat)

end Sys2Proof.Machine
end

