-- ==== Sys2Proof/Machine/Operands.lean ====
section
/-! DEFINITION. The operand forms of the translation operations: which context an operation runs in, the walk mode
and the address fields (spec/41_trtt_and_entries.md R484, spec/42_page_walks.md R571, spec/43_gam_tlb.md R664). -/
namespace Sys2Proof.Machine

/-- The four walk modes (R484). -/
inductive Mode where
  | ggtt | legacy32 | legacy48 | advanced
  deriving DecidableEq, Repr

/-- `ctx.mode` (R664). -/
def Ctx.mode (c : Ctx) : Mode :=
  if c.advanced then .advanced
  else if !c.usePPGTT then .ggtt
  else if c.va48 then .legacy48
  else .legacy32

/-- `Enable64K` of a context (R521). -/
def Ctx.enable64K (c : Ctx) (p : Params) : Bool :=
  if c.advanced then c.iommu.fl64kpe && p.mmio64KEnable else p.mmio64KEnable

/-- The PDP register of `va[31:30]` (R672). -/
def Ctx.pdp (c : Ctx) (k : Nat) : QWord :=
  match k with
  | 0 => c.pdp0
  | 1 => c.pdp1
  | 2 => c.pdp2
  | _ => c.pdp3

/-- The context definition read from the descriptor registers (R664, R670, R672). -/
def ctxOfDescriptor (d : Descriptor) (x : IommuEntry) : Ctx :=
  let adv := !bit d.element 3
  { valid := bit d.element 0
    advanced := adv
    usePPGTT := bit d.element 8
    supervisor := bit d.element 8
    va48 := bit d.element 4
    adEnable := bit d.element 4
    deepCoherency := bit d.element 5
    faultModel := BitVec.ofNat 2 (bits d.element 7 6)
    function := BitVec.ofNat 3 (bits d.element 11 9)
    contextID := BitVec.ofNat 32 (bits d.element 63 32)
    pasid := BitVec.ofNat 20 (bits d.pdp0 19 0)
    pml4 := if adv then x.pml4 else d.pdp0
    pdp0 := d.pdp0
    pdp1 := d.pdp1
    pdp2 := d.pdp2
    pdp3 := d.pdp3
    iommu := x
    bad := false }

/-- The IOMMU inputs of a PASID nobody has described: every enable clear. Also those of a legacy context (R668). -/
def IommuEntry.absent (f : BitVec 3) (p : BitVec 20) : IommuEntry :=
  { function := f, pasid := p, pml4 := 0, nxe := false, wpe := false, smep := false, neste := false, pge := false,
    eafe := false, fl64kpe := false, sre := false, ere := false, paside := false, preCtx := false }

/-- The IOMMU inputs of a PASID; the function number selects which context entry applies (R43). -/
def findIommu : List IommuEntry → BitVec 3 → BitVec 20 → IommuEntry
  | [], f, p => .absent f p
  | x :: xs, f, p => if x.function = f ∧ x.pasid = p then x else findIommu xs f p

/-- The address field `[HAW-1:lo]` of an entry, in place (R510). -/
def addrField (haw : Nat) (e : QWord) (lo : Nat) : Nat := bits e (haw - 1) lo * 2 ^ lo

/-- The base-2 logarithm of a page size (R201(d)). -/
def PageSize.log : PageSize → Nat
  | .size4K => 12
  | .size64K => 16
  | .size2M => 21
  | .size1G => 30

/-- Byte offset of the PTE of a 64 KB page: `8 * (va[20:16] ++ 0000)` (R580). -/
def pte64KOffset (va : Nat) : Nat := 8 * (nbits va 20 16 * 16)

/-- The engine's state in GAM. -/
def State.eng (s : State) (e : Engine) : EngineState := s.engines.get e

/-- Replace an engine's state. -/
def State.setEng (s : State) (e : Engine) (x : EngineState) : State := { s with engines := s.engines.set e x }

/-- The facts remembered for a requester: an engine's, or those of accesses of no engine (R702). -/
def State.facts (s : State) (who : Option Engine) : List Fact :=
  match who with
  | none => s.sharedFacts
  | some e => (s.eng e).facts

/-- Replace a requester's facts. -/
def State.setFacts (s : State) (who : Option Engine) (fs : List Fact) : State :=
  match who with
  | none => { s with sharedFacts := fs }
  | some e => s.setEng e { s.eng e with facts := fs }

end Sys2Proof.Machine
end

