-- ==== Sys2Proof/Machine/Caches.lean ====
section
/-! DEFINITION. Memory types and cache controls (spec/20_memory.md R246 to R264) and the abstract translation cache
(spec/43_gam_tlb.md R702 to R736): look-up, filling and removal of remembered facts. -/
namespace Sys2Proof.Machine

/-! ### Memory types -/

/-- `PAT ++ PCD ++ PWT` (R262). -/
def patIndex (pat pcd pwt : Bool) : Nat := 4 * b2n pat + 2 * b2n pcd + b2n pwt

/-- The type the OS's settings give, before CD (R264). -/
def typeFromRanges : List TypeRange → Nat → Nat → MemType
  | [], _, _ => .wb
  | t :: ts, idx, pa => if t.pat.toNat = idx ∧ t.lo ≤ pa ∧ pa ≤ t.hi then t.type else typeFromRanges ts idx pa

/-- `EffectiveMemType` (R264): with CD = 1 never WB; that it is then UC, and the unlisted default, are the model's
choice, log entries 32 and 8. -/
def effectiveMemType (p : Params) (idx pa : Nat) : MemType :=
  let t := typeFromRanges p.effTypes idx pa
  if p.cd && t == .wb then .uc else t

/-- The private PAT entry of an index (R262). -/
def privatePat (p : Params) (idx : Nat) : PatEntry :=
  p.privatePat.getD idx { memtype := .uc, target := .noCache, age := 0, cos := 0 }

/-- The memory interface control register of an engine's table (R252). -/
def gamtEntry (s : State) (e : Engine) (mocs : BitVec 6) : DWord :=
  s.gamt.getD (64 * (s.par.mocsTable.get e).toNat + mocs.toNat) 0

/-- Skip caching (R259). -/
def skipCaching (m : DWord) (a : Nat) (target : TargetCache) (type : MemType) : TargetCache × MemType :=
  let enabled := bits m 10 8 != 0
  let okBit (k : Nat) : Bool := !bit m (8 + k) || nbit a (9 + k) == 0
  let matched := okBit 0 && okBit 1 && okBit 2
  let keep := if bit m 7 then !matched else matched
  if !enabled then (target, type)
  else match target with
    | .llc => if keep then (.llc, type) else (.ellcOnly, type)
    | .llcEllc => if keep then (.llcEllc, type) else (.ellcOnly, type)
    | .ellcOnly => if keep then (.ellcOnly, type) else (.noCache, .uc)
    | .noCache => (.noCache, type)

/-- The skip-caching match of the L3 (R248). -/
def l3Keeps (m : BitVec 16) (a : Nat) : Bool :=
  let okBit (k : Nat) : Bool := !bit m (1 + k) || nbit a (9 + k) == 0
  !bit m 0 || (okBit 0 && okBit 1 && okBit 2)

/-- Whether the L3 caches the line (R246, R248): L3CC and the skip-caching match. L3CC = 00 takes a control the
source does not give and 10 is reserved (U18): a free choice, log entry 3 (the access then moves the counter).
`override`: the two bits that the HDC passes in place of L3CC (R266). -/
def l3Caches (s : State) (mocs : BitVec 6) (override : Option Bool) (a : Nat) : Bool :=
  let m := s.l3Control.getD mocs.toNat 0
  let wb := match bits m 5 4 with
    | 1 => false
    | 3 => true
    | _ => Config.freeBool s.freeCount
  override.getD wb && l3Keeps m a

/-- What LRUM says of the age (R257); with TC = 00 the page table's LRU control is used (R252), `age`. -/
def ageRule (m : DWord) (age : BitVec 2) : AgeRule :=
  if bits m 3 2 = 0 then .pageTable age
  else match bits m 5 4 with
  | 0 => .uncoreCrs
  | 1 => .assign0
  | 2 => .unchangedOnHit
  | _ => .assign3

/-- Data-port clients (R1306). -/
def Client.isHdc (c : Client) : Bool :=
  match c with
  | .hdcCoherent => true
  | .hdcNoncoherent => true
  | .ic => false
  | .sampler => false
  | .other => false
  | .state => false
  | .command => false
  | .vertex => false
  | .color => false
  | .depth => false
  | .media => false

/-- Clients whose accesses are all reads (R207): command stream, vertex stream, instruction and state cache, sampler
cache. -/
def Client.readOnly (c : Client) : Bool :=
  match c with
  | .ic => true
  | .sampler => true
  | .state => true
  | .command => true
  | .vertex => true
  | .hdcCoherent => false
  | .hdcNoncoherent => false
  | .other => false
  | .color => false
  | .depth => false
  | .media => false

/-- A coherent cycle of a context whose MOCS entry has LeCC = 00 is performed as UC with a fence (R252, R282 item 6). -/
def ucWithFence (advanced : Bool) (client : Client) (mocs : Option (BitVec 6)) (m : DWord) : Bool :=
  !advanced && client == .hdcCoherent && mocs.isSome && bits m 1 0 == 0

/-- `MemoryControls` (R250) of an access with a MOCS index, or with "GTT control only" (`none`, R242). In an advanced
context the effective memory type also decides what a data-port access allocates in L3 (R264, R266). A cycle with a
fence is performed as uncacheable, in no cache (R252, R282 item 6). Where no rule gives a control the choice is log entry 32: an access with no MOCS index is not cached in L3, and one of no engine
(display, aperture) takes the page-table path. -/
def memoryControls (s : State) (e : Option Engine) (advanced : Bool) (client : Client) (mocs : Option (BitVec 6))
    (write pat pcd pwt : Bool) (pa : Nat) : MemControls :=
  let idx := patIndex pat pcd pwt
  let p := privatePat s.par idx
  let m : DWord := match e, mocs with
    | some e, some i => gamtEntry s e i
    | _, _ => 0
  let fence := ucWithFence advanced client mocs m
  let type := if advanced then effectiveMemType s.par idx pa
    else if fence then .uc
    else match bits m 1 0 with
      | 1 => .uc
      | 2 => .wt
      | 3 => .wb
      | _ => p.memtype
  let target := match bits m 3 2 with
    | 0 => p.target
    | 1 => .llc
    | _ => .llcEllc
  let r := skipCaching m pa target type
  { type := r.2, target := if fence then .noCache else r.1, age := ageRule m p.age, allocateOnMiss := !bit m 6
    snoop := bit m 14, fence := fence
    cos := if bits m 16 15 = 0 then p.cos else BitVec.ofNat 2 (bits m 16 15)
    l3 := !fence && match mocs with
      | some i => l3Caches s i (if advanced && client.isHdc then some (type.l3Allocates write) else none) pa
      | none => false }

/-! ### Remembered facts -/

/-- The remembered value of a non-leaf paging-structure entry (R706). -/
def findEntry : List Fact → Nat → Option QWord
  | [], _ => none
  | .entry a v :: fs, x => if a = x then some v else findEntry fs x
  | _ :: fs, x => findEntry fs x

/-- The value that the GTT cache holds of a page-table or GGTT entry (R724). -/
def findGtt : List Fact → Nat → Option QWord
  | [], _ => none
  | .gttEntry a v :: fs, x => if a = x then some v else findGtt fs x
  | _ :: fs, x => findGtt fs x

/-- The remembered value of a TR-TT table entry. -/
def findTrEntry : List Fact → Nat → Nat → Option QWord
  | [], _, _ => none
  | .trEntry a k v :: fs, x, n => if a = x ∧ k = n then some v else findTrEntry fs x n
  | _ :: fs, x, n => findTrEntry fs x n

/-- The remembered result of a TR-TT walk for a tile (R716). -/
def findTile : List Fact → Nat → Option TrttResult
  | [], _ => none
  | .trTile t r :: fs, x => if t = x then some r else findTile fs x
  | _ :: fs, x => findTile fs x

/-- An entry translates an address (R712). -/
def TlbEntry.holds (e : TlbEntry) (va : Nat) : Bool := e.page == va / 2 ^ e.size.log

/-- A translation of the page of `va` that the TLB of a stream holds (R700, R712). -/
def findLeaf : List Fact → TlbId → Bool → Nat → Option TlbEntry
  | [], _, _, _ => none
  | .leaf k g e :: fs, tlb, ggtt, va =>
    if k = tlb ∧ g = ggtt ∧ e.holds va = true then some e else findLeaf fs tlb ggtt va
  | _ :: fs, tlb, ggtt, va => findLeaf fs tlb ggtt va

/-- A faulted record that filters this access: same page, same reason (R713), with the code it repeats. A record filters
the engine's accesses of every stream. -/
def findFaulted : List Fact → BitVec 20 → Nat → Acc → Option (FaultCode × Fact)
  | [], _, _, _ => none
  | .faulted k p c fetchOnly pasid :: fs, q, page, a =>
    let same := match c with
      | .notPresent => true
      | .writePermission => isWrite a
      | .privilege => !fetchOnly || a.isFetch
      | .noFault => false
    if p = page ∧ pasid = q ∧ same = true then some (c, .faulted k p c fetchOnly pasid) else findFaulted fs q page a
  | _ :: fs, q, page, a => findFaulted fs q page a

/-- Drop one fact (R702, R714). -/
def dropFact (s : State) (who : Option Engine) (f : Fact) : State :=
  s.setFacts who ((s.facts who).filter (fun g => g ≠ f))

/-- The final TLB that serves a stream of an engine (R700). That the render engine's command and vertex streams, and every
client without a line of its own in the table, are the fixed functions' is log entry 32, as is GATR for accesses of no
engine. -/
def tlbOf (who : Option Engine) (client : Client) : TlbId :=
  match who with
  | none => .gatr
  | some .vcs0 => .mfx
  | some .vcs1 => .mfx
  | some .vecs => .gav
  | some .bcs => .blt
  | some .render =>
    match client with
    | .hdcCoherent => .l3
    | .hdcNoncoherent => .l3
    | .ic => .l3
    | .sampler => .l3
    | .state => .l3
    | .color => .c
    | .depth => .z
    | .media => .vlf
    | .command => .ff
    | .vertex => .ff
    | .other => .ff

/-- The TLB of which a fact takes an entry: a translation or a faulted record (R700, R713). -/
def Fact.tlb (f : Fact) : Option TlbId :=
  match f with
  | .leaf k _ _ => some k
  | .faulted k _ _ _ _ => some k
  | .entry _ _ => none
  | .gttEntry _ _ => none
  | .trEntry _ _ _ => none
  | .trTile _ _ => none

/-- The entries of a final TLB (R700); the 512 of MFX are split between the two media engines, and GATR has 16. -/
def tlbCapacity (p : Params) (k : TlbId) : Nat :=
  match k with
  | .l3 => p.l3TlbSize
  | .mfx => 256
  | .blt => 32
  | .z => 512
  | .c => 256
  | .ff => 128
  | .vlf => 32
  | .gav => 64
  | .gatr => 16

/-- Remove entry number `n` of a TLB from the facts. -/
def dropTlbAt (k : TlbId) : List Fact → Nat → List Fact
  | [], _ => []
  | f :: fs, n =>
    if f.tlb = some k then
      match n with
      | 0 => fs
      | m + 1 => f :: dropTlbAt k fs m
    else f :: dropTlbAt k fs n

/-- The entries of a TLB among facts. -/
def tlbCount (k : TlbId) (fs : List Fact) : Nat := (fs.filter (fun f => f.tlb == some k)).length

/-- Make room for one more entry of a TLB: with the TLB full, any entry is the victim (R714). -/
def makeRoom (s : State) (who : Option Engine) (k : TlbId) : State :=
  if tlbCount k (s.facts who) < tlbCapacity s.par k then s
  else
    let r := freeQ s
    r.2.setFacts who (dropTlbAt k (r.2.facts who) (r.1.toNat % tlbCount k (r.2.facts who)))

/-- Remember one fact. -/
def remember (s : State) (who : Option Engine) (f : Fact) : State :=
  let t := match f.tlb with
    | some k => makeRoom s who k
    | none => s
  t.setFacts who (f :: t.facts who)

/-- Remember the eight entries of a 64-byte line (R724), also those that are not present: the cached copy of one may
hide that it has become present until the next invalidation (R1401). -/
def rememberLine (s : State) (who : Option Engine) (addr : Nat) : Nat → State
  | 0 => s
  | n + 1 =>
    let a := addr / 64 * 64 + 8 * n
    rememberLine (remember s who (.gttEntry a (memReadQ s a))) who addr n

/-- Where a walk reads paging entries: in memory; in the caches with memory behind them (R702); or in the caches alone,
because no new walk may start (R1316). -/
inductive WalkSrc where
  | memory | caches | held
  deriving DecidableEq, Repr

/-- What an entry at a level can be: an entry of the PML4 table, or any other that is a pointer only, its bit 7 ignored
(R523, R529); a pointer, or with bit 7 a leaf; a page-table or GGTT entry. -/
inductive EntryKind where
  | pml4 | pointer | either | leaf
  deriving DecidableEq, Repr

/-- A remembered copy of an entry: of a page-table or GGTT entry in the GTT cache while it is enabled (R724), of any other
in the page-walk caches, which hold no leaf (R706). -/
def findCopy (s : State) (who : Option Engine) (k : EntryKind) (addr : Nat) : Option QWord :=
  match k with
  | .leaf => if s.par.gttCacheEnable then findGtt (s.facts who) addr else none
  | .pml4 => findEntry (s.facts who) addr
  | .pointer => findEntry (s.facts who) addr
  | .either => findEntry (s.facts who) addr

/-- The fact that a remembered copy is. -/
def copyFact (k : EntryKind) (addr : Nat) (v : QWord) : Fact :=
  match k with
  | .leaf => .gttEntry addr v
  | .pml4 => .entry addr v
  | .pointer => .entry addr v
  | .either => .entry addr v

/-- The page-walk caches hold an entry of the 4 KB table that starts at `base`. -/
def tableHeld (fs : List Fact) (base : Nat) : Bool :=
  fs.any (fun f => match f with
    | .entry a _ => a / 4096 * 4096 == base
    | .gttEntry _ _ => false
    | .trEntry _ _ _ => false
    | .trTile _ _ => false
    | .leaf _ _ _ => false
    | .faulted _ _ _ _ _ => false)

/-- The addresses of the present entries (P = 1, bit 0 of the first byte) of the 4 KB table that starts at `base`. -/
def presentEntries (m : List Host.Cell) (base : Nat) : List Nat :=
  (m.filter (fun c => c.1 / 4096 * 4096 == base && c.1 % 8 == 0 && bit c.2 0)).map Prod.fst

/-- Remember the entries at some addresses. -/
def rememberEntries (s : State) (who : Option Engine) : List Nat → State
  | [] => s
  | a :: as => rememberEntries (remember s who (.entry a (memReadQ s a))) who as

/-- The PML4 level (R706, R576 and R578 corner case 1): the initial demand, met while nothing of the table is held, caches
the entire content of the PML4, 4 KB, of which no entry with P = 0 is ever held; later only an entry that is no longer
held is read again. -/
def fillPml4 (s : State) (who : Option Engine) (addr : Nat) (v : QWord) : State :=
  if tableHeld (s.facts who) (addr / 4096 * 4096) then
    if entryP v then remember s who (.entry addr v) else s
  else rememberEntries s who (presentEntries s.mem (addr / 4096 * 4096))

/-- What a plain read of an entry leaves in the caches: a present entry that is no leaf in the page-walk caches, the PML4
table whole (R706), the line of a page-table entry in the GTT cache when it is enabled (R724). -/
def fillEntry (s : State) (who : Option Engine) (addr : Nat) (k : EntryKind) (v : QWord) : State :=
  match k with
  | .leaf => if s.par.gttCacheEnable then rememberLine s who addr 8 else s
  | .pml4 => fillPml4 s who addr v
  | .pointer => if entryP v then remember s who (.entry addr v) else s
  | .either => if entryP v && !entryPS v then remember s who (.entry addr v) else s

/-- Read a paging-structure entry without A/D management. With `caches`, a remembered copy may stand for memory
(R702); whether it is still held is a free choice. -/
def readEntryPlain (s : State) (src : WalkSrc) (who : Option Engine) (addr : Nat) (k : EntryKind) : QWord × State :=
  match src with
  | .memory => (memReadQ s addr, s)
  | .held => ((findCopy s who k addr).getD (memReadQ s addr), s)
  | .caches =>
    match findCopy s who k addr with
    | some v =>
      let c := freeChoice s
      if c.1 then (v, c.2)
      else
        let s' := dropFact c.2 who (copyFact k addr v)
        (memReadQ s' addr, fillEntry s' who addr k (memReadQ s' addr))
    | none => (memReadQ s addr, fillEntry s who addr k (memReadQ s addr))

/-- `ReadEntry` of R578 with A/D management: one atomic of R752; `none` is the catastrophic error of R790. `parent`
is the PAT index `0 ++ PCD ++ PWT` of the parent entry (R290). -/
def readEntryAD (s : State) (src : WalkSrc) (who : Option Engine) (q : RightsCtl) (parent : Nat) (addr : Nat)
    (inter : Bool) : Option QWord × State :=
  if effectiveMemType s.par parent addr != .wb && !bit s.adNonWB 1 then (none, s)
  else
    let r := atomicPageUpdate s inter q.wp q.ea q.w addr
    let new := r.1.2
    (some new, if src == .caches && inter && entryP new && entryA new && !entryPS new then
        remember r.2 who (.entry addr new) else r.2)

/-- `ReadEntry` of R578. A remembered pointer entry may stand for the atomic on a pointer level: its A bit was set when it
was remembered, and with A/D management only the entry that a walk used enters, of the PML4 table too (R708). A leaf
entry is never remembered there (R706): its read is always the atomic (R753). -/
def readEntryIa (s : State) (src : WalkSrc) (who : Option Engine) (c : Ctx) (q : RightsCtl) (parent : Nat)
    (addr : Nat) (k : EntryKind) : Option QWord × State :=
  if c.adEnable then
    let inter := k != .leaf
    match src, (if inter then findEntry (s.facts who) addr else none) with
    | .caches, some v =>
      let ch := freeChoice s
      if ch.1 then (some v, ch.2)
      else readEntryAD (dropFact ch.2 who (.entry addr v)) src who q parent addr inter
    | .held, some v => (some v, s)
    | .memory, some _ => readEntryAD s src who q parent addr inter
    | .memory, none => readEntryAD s src who q parent addr inter
    | .caches, none => readEntryAD s src who q parent addr inter
    | .held, none => readEntryAD s src who q parent addr inter
  else
    let r := readEntryPlain s src who addr k
    (some r.1, r.2)

/-- `TLBLookup` (R711), after the choice of R702: whether an entry serves this access. -/
def tlbServes (c : Option Ctx) (a : Acc) (e : TlbEntry) : Bool :=
  match c with
  | none => true
  | some c =>
    let q := rightsCtl c a
    let wp := !c.advanced || q.wp
    !(isWrite a && wp && !e.rw) && !(isWrite a && c.advanced && c.adEnable && !e.dirty)
      && !(q.fetch && c.advanced && q.nxe && e.xd)

/-- Look a page up in a final TLB: a hit, or a miss with the useless entry removed (R711). -/
def tlbLookup (s : State) (who : Option Engine) (tlb : TlbId) (c : Option Ctx) (ggtt : Bool) (va : Nat) (a : Acc) :
    Option TlbEntry × State :=
  match findLeaf (s.facts who) tlb ggtt va with
  | none => (none, s)
  | some e =>
    let ch := freeChoice s
    if ch.1 && tlbServes (if ggtt then none else c) a e then (some e, ch.2)
    else (none, dropFact ch.2 who (.leaf tlb ggtt e))

/-- Remove every fact of an engine, or of accesses of no engine. -/
def clearFacts (s : State) (who : Option Engine) : State := s.setFacts who []

/-- Remove the faulted records of a page in a PASID (R734). -/
def dropFaultedOf (pasid : BitVec 20) (page : Nat) (fs : List Fact) : List Fact :=
  fs.filter (fun f => match f with
    | .faulted _ p _ _ q => !(p == page && q == pasid)
    | _ => true)

/-- A translation of an address that a stream's TLB holds. -/
def Fact.translates (f : Fact) (tlb : TlbId) (ggtt : Bool) (va : Nat) : Bool :=
  match f with
  | .leaf k g e => k == tlb && g == ggtt && e.holds va
  | .entry _ _ => false
  | .gttEntry _ _ => false
  | .trEntry _ _ _ => false
  | .trTile _ _ => false
  | .faulted _ _ _ _ _ => false

/-- Map a function over every engine. -/
def PerEngine.map {α : Type} (p : PerEngine α) (f : α → α) : PerEngine α :=
  ⟨f p.render, f p.vcs0, f p.vcs1, f p.vecs, f p.bcs⟩

/-- Empty every HDC mini-TLB (R718, R746). -/
def wipeMiniTlb (s : State) : State := { s with miniTlb := [] }

end Sys2Proof.Machine
end

