-- ==== Sys2Proof/Machine/Ops.lean ====
section
/-! DEFINITION. The shared operations: events to the host (spec/60_exceptions.md R1346), taking a page fault under
each of the three models and the return from one (R1308 to R1324), catastrophic errors (R1328), page requests and
responses (R1318), and the bookkeeping of contexts (spec/10_state.md R118, spec/41_trtt_and_entries.md R497). -/
namespace Sys2Proof.Machine

/-! ### Events -/

/-- Append an event to a destination's queue (R1346). -/
def State.post (s : State) (d : EventDest) (ev : Event) : State :=
  match d with
  | .driver => { s with events := { s.events with driver := s.events.driver ++ [ev] } }
  | .scheduler => { s with events := { s.events with scheduler := s.events.scheduler ++ [ev] } }
  | .iommu => { s with events := { s.events with iommu := s.events.iommu ++ [ev] } }
  | .commandStreamers =>
    { s with events := { s.events with commandStreamers := s.events.commandStreamers ++ [ev] } }

/-- Set an engine's run state. -/
def State.setRun (s : State) (e : Engine) (r : RunState) : State := s.setEng e { s.eng e with run := r }

/-- Set an engine's resident context. -/
def State.setCtx (s : State) (e : Engine) (c : Option Ctx) : State := s.setEng e { s.eng e with ctx := c }

/-- A completed or aborted access, told to its client (R1322). -/
def State.giveReturn (s : State) (r : ClientReturn) : State := { s with returns := s.returns ++ [r] }

/-- An operation that only answers. -/
def answer (s : State) (r : Result) : Host.Outcome State Fault Refusal := .next { s with out := r }

/-- An address function on operands for which the spec states no result: the answer is a free value (log entry 33). -/
def freeAddress (s : State) : Host.Outcome State Fault Refusal :=
  let r := freeQ s
  answer r.2 (.address r.1.toNat)

/-! ### Pending requests -/

/-- The engine of a pending request or message. -/
def Pending.engine : Pending → Option Engine
  | .access a => a.engine
  | .hdc _ => some .render
  | .walk r => r.engine
  | .trtt _ => some .render
  | .aux _ _ _ => some .render
  | .available e => some e
  | .switchOut e => some e

/-- A request for a translation, not a message about contexts. -/
def Pending.isRequest : Pending → Bool
  | .access _ => true
  | .hdc _ => true
  | .walk _ => true
  | .trtt _ => true
  | .aux _ _ _ => true
  | .available _ => false
  | .switchOut _ => false

/-- A request that waits without having faulted. -/
def Waiter.plain (p : Pending) : Waiter := { req := p, faulted := false, table := none }

/-- A waiting request of an engine. -/
def Waiter.isOf (w : Waiter) (e : Engine) : Bool := w.req.isRequest && w.req.engine == some e

/-- Bytes a read returns; 0 for a write. -/
def AccessOp.readLen : AccessOp → Nat
  | .vread n => n
  | .vfetch n => n
  | .vwrite _ => 0
  | .vatomic n _ => n

/-! ### Choosing the fault model -/

/-- The Page Faulting Mode field an access's MOCS index selects (R1308). -/
def pfmField (s : State) (e : Engine) (mocs : Option (BitVec 6)) : Nat :=
  match mocs with
  | none => 0
  | some i => bits (gamtEntry s e i) 13 11

/-- `FaultModelOf` (R1308). -/
def faultModelOf (s : State) (e : Engine) (c : Ctx) (client : Client) (mocs : Option (BitVec 6)) (ggtt : Bool) :
    Except Refusal FaultModel :=
  if ggtt || !c.advanced then .ok .hang
  else if pfmField s e mocs ≠ 0 then .error .pfmReserved
  else match c.faultModel.toNat with
    | 1 => .ok .halt
    | 2 =>
      if bit s.reg404C 0 then .ok .halt
      else match client with
        | .hdcCoherent => .ok .stream
        | .ic => .ok .stream
        | .hdcNoncoherent => .ok .halt
        | .sampler => .ok .halt
        | .other => .ok .halt
        | .state => .ok .halt
        | .command => .ok .halt
        | .vertex => .ok .halt
        | .color => .ok .halt
        | .depth => .ok .halt
        | .media => .ok .halt
    | _ => .error .faultModelField

/-- The fault model that the two mode bits of a return or response carry (R266, R1302): that of the access's context,
the hang of R1304 where there is none (log entry 32). -/
def modeOf (s : State) (who : Option Engine) (client : Client) (mocs : Option (BitVec 6)) (ggtt : Bool) : FaultModel :=
  match who.bind (fun e => (s.eng e).ctx.map (fun c => (e, c))) with
  | none => .hang
  | some (e, c) =>
    match faultModelOf s e c client mocs ggtt with
    | .ok m => m
    | .error _ => .halt

/-- What goes back to the client of an access (R1322). -/
def returnOf (s : State) (a : MemAccess) (data : List Byte) (null done : Bool) (code : FaultCode)
    (ctl : Option MemControls) : ClientReturn :=
  { tag := a.tag, slice := a.slice, client := a.client, data := data, null := null, code := code,
    mode := modeOf s a.engine a.client a.mocs a.useGgtt, done := done, ctl := ctl, evict := none }

/-- The client that an HDC request stands for (R1306, D53). -/
def HdcReq.client (q : HdcReq) : Client := if q.faultable then .hdcCoherent else .hdcNoncoherent

/-- The client that makes a request. -/
def Pending.client (p : Pending) : Client :=
  match p with
  | .access a => a.client
  | .hdc q => q.client
  | .walk r => r.client
  | .trtt _ => .other
  | .aux _ _ _ => .sampler
  | .available _ => .other
  | .switchOut _ => .other

/-- The client whose fault a waiting request waits for; one stopped in a TR-TT table read waits for the TR walker, which is
no other client of the list. -/
def Waiter.client (w : Waiter) : Client := if w.table.isSome then .other else w.req.client

/-- The memory type of a code drawn at random. -/
def memTypeAt (n : Nat) : MemType :=
  match n % 5 with
  | 0 => .uc
  | 1 => .wc
  | 2 => .wt
  | 3 => .wp
  | _ => .wb

/-- A response that carries no translation (R744, R1302, R1324): PA, D bit and memory type are arbitrary. -/
def hdcFaultResponse (s : State) (r : HdcReq) (c : FaultCode) (m : FaultModel) : HdcResp × State :=
  let p := freeBytes s 4
  let d := freeChoice p.2
  let t := freeBytes d.2 1
  ({ slice := r.slice, hdc := r.hdc, pa := BitVec.ofNat 27 (leNat p.1), write := r.write, d := d.1, code := c,
     memType := memTypeAt (leNat t.1), tracking := r.tracking, mode := m, xlate := none }, t.2)

/-- Put a response on the broadcast bus (R744); none is sent while an invalidation is in progress (R746 step 3). -/
def sendHdcResponse (s : State) (r : HdcResp) : State :=
  if s.hdcInvalidating then { s with out := .dropped }
  else { s with hdcResponses := s.hdcResponses ++ [r], out := .hdc r }

/-- A sample of all zeros (R413). -/
def zeroTexel : Texel := { r := .unorm 0 1, g := .unorm 0 1, b := .unorm 0 1, a := .unorm 0 1 }

/-- The request completes as an invalid access (R1324): arbitrary data, no memory changed, nothing left in a TLB. The spec
names no fault code for what goes back: 00, a DESIGN CHOICE (log entry 32). A sample gets either response. A message
about contexts is not a request. -/
def completeInvalid (s : State) (p : Pending) : State :=
  match p with
  | .access a =>
    let r := freeBytes s a.op.readLen
    r.2.giveReturn (returnOf s a r.1 false false .noFault none)
  | .hdc q =>
    let r := hdcFaultResponse s q .noFault (modeOf s (some .render) q.client none false)
    sendHdcResponse r.2 r.1
  | .walk _ => { s with out := .dropped }
  | .trtt _ => { s with out := .dropped }
  | .aux _ _ _ =>
    let c := freeChoice s
    { c.2 with out := if c.1 then .sampleNormal else .sampleNull zeroTexel }
  | .available _ => s
  | .switchOut _ => s

/-! ### Catastrophic errors -/

/-- Mark the resident context of an engine bad (R1328, R1344). -/
def markBad (s : State) (e : Engine) : State :=
  match (s.eng e).ctx with
  | none => s
  | some c => s.setCtx e (some { c with bad := true })

/-- An engine has met a condition that a reset or the continue action ends (R33, R120). -/
def needReset (s : State) (e : Engine) : State := s.setEng e { s.eng e with needsReset := true }

/-- A TR-TT table read of an engine is lost: it needs a reset, and no continue action ends that (R505, R1330). -/
def loseTable (s : State) (e : Engine) : State := s.setEng e { s.eng e with needsReset := true, lostTable := true }

/-- `CatastrophicError` (R1328, R33): the context is marked bad and the scheduler and driver are told; the engine does
not hang. -/
def takeCatastrophic (s : State) (e : Engine) (k : ErrorKind) : State :=
  match (s.eng e).ctx with
  | none => s
  | some c =>
    let s1 := needReset (markBad s e) e
    (s1.post .scheduler (.contextError e c.pasid c.contextID k)).post .driver
      (.contextError e c.pasid c.contextID k)

/-! ### Page requests -/

/-- Record a page request as outstanding and make it visible to the IOMMU software (R1318). Its PRG Index is taken. -/
def issueRequest (s : State) (r : PageRequest) : State :=
  { s with outstanding := s.outstanding ++ [r], nextPrg := s.nextPrg + 1 }.post .iommu (.pageRequestVisible r)

/-- Send a page request for a fault (R1318): the record, visible to the IOMMU software, and the faulted TLB record in the
TLB of the client's stream. -/
def sendPageRequest (s : State) (e : Engine) (c : Ctx) (client : Client) (f : PageFault) (m : FaultModel) : State :=
  remember
    (issueRequest s
      { engine := some e, pasid := c.pasid, contextID := c.contextID, page := f.va / 4096, acc := f.acc, code := f.code,
        level := f.level, mode := m, prgIndex := s.nextPrg, last := false, terminating := false, taken := false })
    (some e)
    (.faulted (tlbOf (some e) client) (f.va / 4096) f.code (f.acc.isFetch && f.code == .privilege && !f.us) c.pasid)

/-- The LAST request of a context (R1340, R1344), in the name of the engine that it leaves, or of none. The spec does not
say which page, access, code and level it carries: page 0, a read, code 00, level PT, and the stream model, a DESIGN
CHOICE (log entry 32). -/
def sendLastRequest (s : State) (e : Option Engine) (pasid : BitVec 20) (contextID : BitVec 32) (terminating : Bool) :
    State :=
  issueRequest s
    { engine := e, pasid := pasid, contextID := contextID, page := 0, acc := .read, code := .noFault, level := .pt,
      mode := .stream, prgIndex := s.nextPrg, last := true, terminating := terminating, taken := false }

/-! ### Taking a page fault, and the return from one -/

/-- Fault and hang (R1312, R33). -/
def takeHang (s : State) (e : Engine) (f : PageFault) (p : Pending) : State :=
  let s1 := (needReset s e).setRun e (.hung f true)
  let s2 := s1.post .driver (.hangReport e f)
  { s2 with waiting := s2.waiting ++ [{ req := p, faulted := true, table := none }], out := .pageFault f.code f.level }

/-- What the faulting client's stream still holds of the page goes, so that no later access of the client to the page
completes before the fault is resolved (R1334(b)): translations of its TLB, and mini-TLB entries if it is a data
port. -/
def dropPage (s : State) (e : Engine) (client : Client) (ggtt : Bool) (va : Nat) : State :=
  let s1 := s.setFacts (some e) ((s.facts (some e)).filter (fun f => !f.translates (tlbOf (some e) client) ggtt va))
  if client.isHdc && e == .render && !ggtt then
    { s1 with miniTlb := s1.miniTlb.filter (fun x => x.vpage.toNat != va / 4096) }
  else s1

/-- Fault and halt (R1316). `table`: the level of the TR-TT table whose read met the fault (R1330). -/
def takeHalt (s : State) (e : Engine) (c : Ctx) (client : Client) (f : PageFault) (table : Option Nat) (p : Pending) :
    State :=
  let s1 := sendPageRequest (dropPage s e client f.ggtt f.va) e c client f .halt
  let s2 := s1.setRun e (.halted f)
  { s2 with missBlocked := some e, waiting := s2.waiting ++ [{ req := p, faulted := true, table := table }],
            out := .pageFault f.code f.level }

/-- The fault code goes back to the originator (R1320, R1322), with arbitrary data. -/
def returnFaultCode (s : State) (f : PageFault) (m : FaultModel) (p : Pending) : State :=
  match p with
  | .access a =>
    let r := freeBytes s a.op.readLen
    r.2.giveReturn { returnOf s a r.1 false false f.code none with mode := m }
  | .hdc q =>
    let r := hdcFaultResponse s q f.code m
    sendHdcResponse r.2 r.1
  | .walk _ => { s with out := .pageFault f.code f.level }
  | .trtt _ => { s with out := .pageFault f.code f.level }
  | .aux _ _ _ => { s with out := .pageFault f.code f.level }
  | .available _ => s
  | .switchOut _ => s

/-- Fault and stream (R1320). -/
def takeStream (s : State) (e : Engine) (c : Ctx) (client : Client) (f : PageFault) (p : Pending) : State :=
  let s1 := returnFaultCode s f .stream p
  let s2 := sendPageRequest s1 e c client f .stream
  let n := (s2.eng e).streamFaultCount
  let s3 := s2.setEng e { s2.eng e with streamFaultCount := n + 1 }
  if n = 0 then s3.post .scheduler (.streamFaultIRQ e) else s3

/-- TAKE A PAGE FAULT (R1300 to R1334): the one shared entry. The request `p` performs no memory access. With no
engine (aperture, display) it completes as an invalid access (R1304); otherwise the model of R1308 applies, and a
fault that cannot be reported is a catastrophic error (R1318). -/
def takePageFault (s : State) (f : PageFault) (client : Client) (mocs : Option (BitVec 6)) (p : Pending) :
    Except Refusal State :=
  match f.engine with
  | none => .ok (completeInvalid s p)
  | some e =>
    if f.ggtt then .ok (takeHang s e f p)
    else match (s.eng e).ctx with
    | none => .error .noResidentContext
    | some c =>
      match faultModelOf s e c client mocs f.ggtt with
      | .error r => .error r
      | .ok .hang => .ok (takeHang s e f p)
      | .ok .halt =>
        if c.iommu.preCtx then .ok (takeHalt s e c client f none p)
        else .ok (completeInvalid { takeCatastrophic s e .pageRequestDisabled with out := .error .pageRequestDisabled } p)
      | .ok .stream =>
        if c.iommu.preCtx then .ok (takeStream s e c client f p)
        else .ok (completeInvalid { takeCatastrophic s e .pageRequestDisabled with out := .error .pageRequestDisabled } p)

/-- A fault of a TR-TT table read that is not recoverable (R1330): a hang report for a legacy context, a catastrophic
error for an advanced one; the render engine needs a reset. The walk goes on with an arbitrary value. -/
def takeTableFault (s : State) (c : Ctx) (f : PageFault) : State :=
  let s1 := loseTable s .render
  if c.advanced then takeCatastrophic s1 .render .pageRequestDisabled
  else (s1.setRun .render (.hung f false)).post .driver (.hangReport .render f)

/-- Whether this engine's fault blocks the miss pipeline. -/
def blocksMisses (s : State) (e : Engine) : Bool := s.missBlocked == some e

/-- Unblock the miss pipeline if this engine's fault blocked it (R1316, R1336). -/
def unblock (s : State) (e : Engine) : State := if blocksMisses s e then { s with missBlocked := none } else s

/-- THE RETURN FROM A HALT (R1316, R1338): the engine runs again and the miss pipeline opens; the pending requests
are then translated again from the start. -/
def returnFromHalt (s : State) (e : Engine) : State :=
  match (s.eng e).run with
  | .halted _ => unblock (s.setRun e .running) e
  | .idle => s
  | .running => s
  | .switching => s
  | .hung _ _ => s

/-- Remove the outstanding record with a PRG Index (R1318). -/
def removeRequest (s : State) (i : Nat) : State :=
  { s with outstanding := s.outstanding.filter (fun r => r.prgIndex != i) }

/-- The faulted records of a page leave every TLB (R734). -/
def shootDownFaulted (s : State) (pasid : BitVec 20) (page : Nat) : State :=
  { s with
    engines := s.engines.map (fun x => { x with facts := dropFaultedOf pasid page x.facts })
    sharedFacts := dropFaultedOf pasid page s.sharedFacts }

/-- Every waiting request of an engine is abandoned: each completes as an invalid access (R1336, R1344). -/
def abandonList : List Waiter → Engine → State → State
  | [], _, s => s
  | w :: ws, e, s => abandonList ws e (if w.isOf e then completeInvalid s w.req else s)

/-- Drop an engine's waiting requests without completing them (R1384: "none is performed"). -/
def dropWaiting (s : State) (e : Engine) : State := { s with waiting := s.waiting.filter (fun w => !w.isOf e) }

/-- Abandon an engine's waiting requests. -/
def abandonWaiting (s : State) (e : Engine) : State := abandonList s.waiting e (dropWaiting s e)

/-- Drop the messages about contexts that wait at an engine: a reset ends them. -/
def dropMessages (s : State) (e : Engine) : State :=
  { s with waiting := s.waiting.filter (fun w => w.req.engine != some e) }

/-! ### Contexts -/

/-- `PASID_State` of a PASID (R118). -/
def pasidCount : List (BitVec 20 × Nat) → BitVec 20 → Nat
  | [], _ => 0
  | (q, n) :: m, p => if q = p then n else pasidCount m p

/-- Set a count; a zero count is not listed. -/
def setPasidCount : List (BitVec 20 × Nat) → BitVec 20 → Nat → List (BitVec 20 × Nat)
  | [], p, n => if n = 0 then [] else [(p, n)]
  | (q, k) :: m, p, n => if q = p then (if n = 0 then m else (p, n) :: m) else (q, k) :: setPasidCount m p n

/-- An advanced context becomes resident on an engine (R118). -/
def enterPasid (s : State) (c : Ctx) : State :=
  if c.advanced then { s with pasidState := setPasidCount s.pasidState c.pasid (pasidCount s.pasidState c.pasid + 1) }
  else s

/-- It leaves the engine (R118, R1388). -/
def leavePasid (s : State) (c : Ctx) : State :=
  if c.advanced then { s with pasidState := setPasidCount s.pasidState c.pasid (pasidCount s.pasidState c.pasid - 1) }
  else s

/-- The TR-TT registers saved with a context; the reset values if it never ran (R497). -/
def savedTrtt : List (BitVec 32 × TrttRegs) → BitVec 32 → TrttRegs
  | [], _ => .reset
  | (k, r) :: m, i => if k = i then r else savedTrtt m i

/-- Save a context's TR-TT registers (R497). -/
def saveTrtt : List (BitVec 32 × TrttRegs) → BitVec 32 → TrttRegs → List (BitVec 32 × TrttRegs)
  | [], i, r => [(i, r)]
  | (k, q) :: m, i, r => if k = i then (i, r) :: m else (k, q) :: saveTrtt m i r

/-- The memory interface control registers of an engine's table (R252). -/
def mocsOf (s : State) (e : Engine) : List DWord := (s.gamt.drop (64 * (s.par.mocsTable.get e).toNat)).take 64

/-- Put an engine's table back. -/
def setMocs (s : State) (e : Engine) (t : List DWord) : State :=
  let k := 64 * (s.par.mocsTable.get e).toNat
  { s with gamt := s.gamt.take k ++ t ++ s.gamt.drop (k + t.length) }

/-- The table saved with a context; none if it never ran (R252). -/
def savedMocs : List ((Engine × BitVec 32) × List DWord) → Engine → BitVec 32 → Option (List DWord)
  | [], _, _ => none
  | (k, t) :: m, e, i => if k = (e, i) then some t else savedMocs m e i

/-- Save a context's table (R252). -/
def saveMocs : List ((Engine × BitVec 32) × List DWord) → Engine → BitVec 32 → List DWord →
    List ((Engine × BitVec 32) × List DWord)
  | [], e, i, t => [((e, i), t)]
  | (k, u) :: m, e, i, t => if k = (e, i) then ((e, i), t) :: m else (k, u) :: saveMocs m e i t

/-- Whether a context has outstanding page requests (R1340). -/
def hasOutstanding (s : State) (contextID : BitVec 32) : Bool :=
  s.outstanding.any (fun r => r.contextID == contextID)

/-- The LAST request of a context has been sent (R1340, R1344). -/
def lastSent (s : State) (contextID : BitVec 32) (terminating : Bool) : Bool :=
  s.outstanding.any (fun r => r.contextID == contextID && r.last && r.terminating == terminating)

/-- The L3 control table saved with a context; none if it never ran (R252). -/
def savedL3 : List (BitVec 32 × List (BitVec 16)) → BitVec 32 → Option (List (BitVec 16))
  | [], _ => none
  | (k, t) :: m, i => if k = i then some t else savedL3 m i

/-- Save a context's L3 control table (R252). -/
def saveL3 : List (BitVec 32 × List (BitVec 16)) → BitVec 32 → List (BitVec 16) → List (BitVec 32 × List (BitVec 16))
  | [], i, t => [(i, t)]
  | (k, u) :: m, i, t => if k = i then (i, t) :: m else (k, u) :: saveL3 m i t

/-- Save what the registers hold for a context: its engine's memory interface control table, and of the render engine
the L3 control table (R252) and the TR-TT registers (R497). -/
def saveRegisters (s : State) (e : Engine) (contextID : BitVec 32) : State :=
  let s0 := { s with mocsSaved := saveMocs s.mocsSaved e contextID (mocsOf s e) }
  if e = .render then
    { s0 with trttSaved := saveTrtt s0.trttSaved contextID s0.trtt, l3Saved := saveL3 s0.l3Saved contextID s0.l3Control }
  else s0

/-- Remember a context bad by a response failure: it is not promoted (R1336). -/
def rememberFailed (s : State) (contextID : BitVec 32) : State :=
  { s with failedContexts := if s.failedContexts.contains contextID then s.failedContexts
                             else contextID :: s.failedContexts }

/-- Remember a bad context that is resident nowhere. -/
def rememberBad (s : State) (contextID : BitVec 32) : State :=
  { s with badContexts := if s.badContexts.contains contextID then s.badContexts else contextID :: s.badContexts }

/-- Remember an advanced context that leaves an engine and may come back: a response failure for its PASID meets it while
it is away (R1336). -/
def noteAway (s : State) (e : Engine) (c : Ctx) : State :=
  if c.advanced then
    { s with awayContexts := ⟨e, c.pasid, c.contextID⟩ :: s.awayContexts.filter (fun x => x.contextID != c.contextID) }
  else s

/-- A context in termination is away no more. -/
def forgetAway (s : State) (contextID : BitVec 32) : State :=
  { s with awayContexts := s.awayContexts.filter (fun x => x.contextID != contextID) }

/-- The resident context leaves an engine (R684, R1340): TR-TT and MOCS registers saved, `PASID_State` and the stream fault
count taken back, the engine's facts gone; a context with outstanding requests gets a LAST request, as page requests are
sent only with `PRE_ctx` (R111). -/
def leaveEngine (s : State) (e : Engine) (terminating : Bool) : State :=
  match (s.eng e).ctx with
  | none => s
  | some c =>
    let s2 := leavePasid (saveRegisters s e c.contextID) c
    let s3 := if c.advanced && c.iommu.preCtx && hasOutstanding s2 c.contextID && !lastSent s2 c.contextID terminating
      then sendLastRequest s2 (some e) c.pasid c.contextID terminating else s2
    let s4 := if c.bad && !terminating then rememberBad s3 c.contextID else s3
    let s5 := if terminating then s4 else noteAway s4 e c
    s5.setEng e { s5.eng e with ctx := none, streamFaultCount := 0, facts := [] }

end Sys2Proof.Machine
end

