-- ==== Sys2Proof/Syntax.lean ====
section
/-! DEFINITION. The operations of the opcode table (spec/30_encoding.md R331) with their operands: one constructor
per row. The operand widths are the spec's where it gives one; coordinates and pitches are 32 bits (log entry 12). -/
namespace Sys2Proof

open Machine (Engine Client Acc FaultCode FaultModel MemType)

/-- The walk of a fence: the algorithm of R423 is also given for W. -/
inductive TileWalk where
  | x | y | w
  deriving DecidableEq, Repr

/-- The four packed YUV 4:2:2 formats (R881). -/
inductive YuvFormat where
  | normal | swapUvy | swapUv | swapY
  deriving DecidableEq, Repr

/-- `Tile_Mode` (R407). -/
inductive TileMode where
  | linear | tileX | tileY | tileW
  deriving DecidableEq, Repr

/-- `Tiled_Resource_Mode` (R407): none, TILEYF (TRMODE_4KB), TILEYS (TRMODE_64KB). -/
inductive TrMode where
  | none | yf | ys
  deriving DecidableEq, Repr

/-- Element size in bytes, as `log2` (R1206: 1, 2, 4, 8 or 16 bytes). -/
inductive Bpe where
  | b8 | b16 | b32 | b64 | b128
  deriving DecidableEq, Repr

/-- The number of multisamples (R1237). -/
inductive Samples where
  | s1 | s2 | s4 | s8 | s16
  deriving DecidableEq, Repr

/-- The scope of a TLB invalidation (R730). -/
inductive InvScope where
  | all
  | engine (e : Engine)
  | pasid (p : BitVec 20)
  | page (p : BitVec 20) (n : BitVec 36)
  deriving DecidableEq, Repr

/-- Which structures an invalidation covers beside the final TLBs (R730). -/
structure InvStructs where
  pwc : Bool
  pasidCache : Bool
  contextCache : Bool
  deriving DecidableEq, Repr

/-- The fields of an `HDC.PAGEREQ` message (R742). -/
structure PageReqMsg where
  valid : Bool
  slice : BitVec 2
  hdc : BitVec 2
  vpage : BitVec 36
  write : Bool
  tracking : BitVec 8
  faultable : Bool
  deriving DecidableEq, Repr

/-- The fields of an `HDC.PAGERESP` message (R744), with the two fault mode bits (R1302). -/
structure PageRespMsg where
  valid : Bool
  pa : BitVec 27
  write : Bool
  slice : BitVec 2
  hdc : BitVec 2
  d : Bool
  code : FaultCode
  memType : MemType
  tracking : BitVec 8
  mode : FaultModel
  deriving DecidableEq, Repr

/-- The messages of `HDC.TLBINV` (R746). -/
inductive TlbInvMsg where
  | start
  | ack (slice hdc : BitVec 2)
  | stop
  deriving DecidableEq, Repr

/-- Position of a texel in a 4x4 block. -/
structure Pos where
  row : BitVec 2
  col : BitVec 2
  deriving DecidableEq, Repr

/-- Operands of `SURF.1D` (R1214). `mips`: MIPCOUNT (R1208); `inTail`: the surface is one MIP inside the MIP tail of
another (R402). -/
structure Surf1D where
  base : BitVec 64
  width : BitVec 32
  qpitch : BitVec 32
  bpe : Bpe
  tr : TrMode
  tail : BitVec 4
  lod : BitVec 4
  mips : BitVec 5
  inTail : Bool
  r : BitVec 32
  u : BitVec 32
  deriving DecidableEq, Repr

/-- Operands of `SURF.2D` (R1234) and `SURF.3D` (R1272). `p`, `q`: the compression block; `i`, `j`: the alignment
unit of R1285, `k` that of the depth of a 3D surface (R1271; it enters no address, and R1278 fixes it); `interleaved`: a depth or stencil surface or
MSFMT_DEPTH_STENCIL; `mips`: MIPCOUNT (R1208); `inTail`: the surface is one MIP inside the MIP tail of another (R402). -/
structure Surf2D where
  base : BitVec 64
  width : BitVec 32
  height : BitVec 32
  pitch : BitVec 32
  qpitch : BitVec 32
  tile : TileMode
  tr : TrMode
  bpe : Bpe
  p : BitVec 8
  q : BitVec 8
  i : BitVec 16
  j : BitVec 16
  k : BitVec 16
  tail : BitVec 4
  lod : BitVec 4
  mips : BitVec 5
  samples : Samples
  interleaved : Bool
  inTail : Bool
  xoff : BitVec 32
  yoff : BitVec 32
  r : BitVec 32
  u : BitVec 32
  v : BitVec 32
  ss : BitVec 4
  deriving DecidableEq, Repr

/-- The format classes of the padding rule (R1287). -/
inductive PadClass where
  | plain
  /-- BC*, FXT1, ETC*, EAC*, ASTC* -/
  | compressed
  /-- packed YUV, 96, 48 and 24 bits per texel -/
  | odd
  deriving DecidableEq, Repr

/-- Operands of `SURF.PAD` (R1289). `simple`: a buffer, 1D or plain 2D surface of the programming note of R1287. -/
structure SurfPad where
  width : BitVec 32
  height : BitVec 32
  i : BitVec 16
  j : BitVec 16
  q : BitVec 8
  cls : PadClass
  linear : Bool
  cube : Bool
  simple : Bool
  deriving DecidableEq, Repr

/-- The operations of the opcode table. -/
inductive Instr where
  | tileLinear (base : BitVec 64) (pitch x y : BitVec 32)
  | tileX (base : BitVec 64) (pitch x y : BitVec 32)
  | tileY (base : BitVec 64) (pitch x y : BitVec 32)
  | tileW (base : BitVec 64) (pitch x y : BitVec 32)
  | tileFence (linear base : BitVec 64) (pitch : BitVec 32) (walk : TileWalk)
  | tileYs64 (x y : BitVec 16)
  | tileYs16 (x y : BitVec 16)
  | tileYs8 (x y : BitVec 16)
  | tileYsMsaa2_64 (x y sample : BitVec 16)
  | tileYsMsaa2_16 (x y sample : BitVec 16)
  | tileYsMsaa2_8 (x y sample : BitVec 16)
  | tileYsMsaa4_64 (x y sample : BitVec 16)
  | tileYsMsaa4_16 (x y sample : BitVec 16)
  | tileYsMsaa4_8 (x y sample : BitVec 16)
  | tileYsMsaa8_64 (x y sample : BitVec 16)
  | tileYsMsaa8_16 (x y sample : BitVec 16)
  | tileYsMsaa8_8 (x y sample : BitVec 16)
  | tileYsMsaa16_64 (x y sample : BitVec 16)
  | tileYsMsaa16_16 (x y sample : BitVec 16)
  | tileYsMsaa16_8 (x y sample : BitVec 16)
  | tileYf64 (x y : BitVec 16)
  | tileYf16 (x y : BitVec 16)
  | tileYf8 (x y : BitVec 16)
  | trttWalk (va : BitVec 64)
  | ggttWalk (e : Option Engine) (a : Acc) (va : BitVec 64)
  | ppgtt32Walk (e : Engine) (client : Client) (mocs : BitVec 6) (a : Acc) (va : BitVec 64)
  | ppgtt48Walk (e : Engine) (client : Client) (mocs : BitVec 6) (a : Acc) (va : BitVec 64)
  | ia32eWalk (e : Engine) (client : Client) (mocs : BitVec 6) (a : Acc) (va : BitVec 64)
  | tlbInvalidate (scope : InvScope) (structs : InvStructs)
  | hdcPageReq (m : PageReqMsg)
  | hdcPageResp (m : PageRespMsg)
  | hdcTlbInv (m : TlbInvMsg)
  | pageUpdate0000 (addr : BitVec 64)
  | pageUpdate0001 (addr : BitVec 64)
  | pageUpdate0010 (addr : BitVec 64)
  | pageUpdate0011 (addr : BitVec 64)
  | pageUpdate0100 (addr : BitVec 64)
  | pageUpdate0101 (addr : BitVec 64)
  | pageUpdate0110 (addr : BitVec 64)
  | pageUpdate0111 (addr : BitVec 64)
  | pageUpdate1000 (addr : BitVec 64)
  | pageUpdate1001 (addr : BitVec 64)
  | pageUpdate1010 (addr : BitVec 64)
  | pageUpdate1011 (addr : BitVec 64)
  | pageUpdate1100 (addr : BitVec 64)
  | pageUpdate1101 (addr : BitVec 64)
  | pageUpdate1110 (addr : BitVec 64)
  | pageUpdate1111 (addr : BitVec 64)
  | aUpdate000 (addr : BitVec 64)
  | aUpdate001 (addr : BitVec 64)
  | aUpdate010 (addr : BitVec 64)
  | aUpdate011 (addr : BitVec 64)
  | aUpdate100 (addr : BitVec 64)
  | adUpdate101 (addr : BitVec 64)
  | adUpdate110 (addr : BitVec 64)
  | adUpdate111 (addr : BitVec 64)
  | fmtR1 (b : BitVec 8) (k : BitVec 3)
  | fmtP4A4 (p : BitVec 8)
  | fmtA4P4 (p : BitVec 8)
  | fmtP8A8 (p : BitVec 16)
  | fmtA8P8 (p : BitVec 16)
  | fmtP8 (p : BitVec 8)
  | fmtP2 (p : BitVec 8) (k : BitVec 2)
  | fmtYuv422 (f : YuvFormat) (v : BitVec 32)
  | etc1 (v : BitVec 64) (n : Pos)
  | etc2 (v : BitVec 64) (n : Pos) (srgb : Bool)
  | eacR11 (v : BitVec 64) (n : Pos) (signed : Bool)
  | etc2Pta (v : BitVec 64) (n : Pos) (srgb : Bool)
  | etc2EacRgba8 (v : BitVec 128) (n : Pos) (srgb : Bool)
  | eacR8 (v : BitVec 64) (n : Pos)
  | eacRg11 (v : BitVec 128) (n : Pos) (signed : Bool)
  | fxt1 (v : BitVec 128) (t : BitVec 5)
  | fxt1Hi (v : BitVec 128) (t : BitVec 5)
  | fxt1Chroma (v : BitVec 128) (t : BitVec 5)
  | fxt1Mixed (v : BitVec 128) (t : BitVec 5)
  | fxt1Alpha (v : BitVec 128) (t : BitVec 5)
  | dxt1 (v : BitVec 64) (n : Pos) (srgb : Bool)
  | dxt1Rgb (v : BitVec 64) (n : Pos) (srgb : Bool)
  | dxt3 (v : BitVec 128) (n : Pos)
  | dxt5 (v : BitVec 128) (n : Pos)
  | bc4 (v : BitVec 64) (n : Pos) (snorm : Bool)
  | bc5 (v : BitVec 128) (n : Pos) (snorm : Bool)
  | bc6h (v : BitVec 128) (n : Pos) (signed : Bool)
  | bc6hMode0 (v : BitVec 128) (n : Pos) (signed : Bool)
  | bc6hMode1 (v : BitVec 128) (n : Pos) (signed : Bool)
  | bc6hMode2 (v : BitVec 128) (n : Pos) (signed : Bool)
  | bc6hMode3 (v : BitVec 128) (n : Pos) (signed : Bool)
  | bc6hMode4 (v : BitVec 128) (n : Pos) (signed : Bool)
  | bc6hMode5 (v : BitVec 128) (n : Pos) (signed : Bool)
  | bc6hMode6 (v : BitVec 128) (n : Pos) (signed : Bool)
  | bc6hMode7 (v : BitVec 128) (n : Pos) (signed : Bool)
  | bc6hMode8 (v : BitVec 128) (n : Pos) (signed : Bool)
  | bc6hMode9 (v : BitVec 128) (n : Pos) (signed : Bool)
  | bc6hMode10 (v : BitVec 128) (n : Pos) (signed : Bool)
  | bc6hMode11 (v : BitVec 128) (n : Pos) (signed : Bool)
  | bc6hMode12 (v : BitVec 128) (n : Pos) (signed : Bool)
  | bc6hMode13 (v : BitVec 128) (n : Pos) (signed : Bool)
  | bc6hUndef10011 (v : BitVec 128) (n : Pos) (signed : Bool)
  | bc6hUndef10111 (v : BitVec 128) (n : Pos) (signed : Bool)
  | bc6hUndef11011 (v : BitVec 128) (n : Pos) (signed : Bool)
  | bc6hUndef11111 (v : BitVec 128) (n : Pos) (signed : Bool)
  | bc7 (v : BitVec 128) (n : Pos) (srgb : Bool)
  | bc7Mode0 (v : BitVec 128) (n : Pos) (srgb : Bool)
  | bc7Mode1 (v : BitVec 128) (n : Pos) (srgb : Bool)
  | bc7Mode2 (v : BitVec 128) (n : Pos) (srgb : Bool)
  | bc7Mode3 (v : BitVec 128) (n : Pos) (srgb : Bool)
  | bc7Mode4 (v : BitVec 128) (n : Pos) (srgb : Bool)
  | bc7Mode5 (v : BitVec 128) (n : Pos) (srgb : Bool)
  | bc7Mode6 (v : BitVec 128) (n : Pos) (srgb : Bool)
  | bc7Mode7 (v : BitVec 128) (n : Pos) (srgb : Bool)
  | bc7Undef (v : BitVec 128) (n : Pos) (srgb : Bool)
  | astc (v : BitVec 128) (fmt : BitVec 9) (s t r : BitVec 4)
  | astcHeader (h : BitVec 128) (lod : BitVec 5) (k : BitVec 32)
  | bufTyped (base : BitVec 64) (pitch v u : BitVec 32)
  | bufRaw (base u : BitVec 64)
  | bufStructured (base : BitVec 64) (pitch u v : BitVec 32)
  | surf1D (a : Surf1D)
  | surf2D (a : Surf2D)
  | mcsDecode (samples : Samples) (m : BitVec 64) (k : BitVec 4)
  | surfQuilt (width height qx qy r : BitVec 32)
  | surfCube (ai : BitVec 32) (f : BitVec 3)
  | surf3D (a : Surf2D)
  | surfPad (a : SurfPad)
  deriving DecidableEq, Repr

end Sys2Proof
end

