-- ==== Sys2Proof/Machine/Formats.lean ====
section
/-! DEFINITION. The simple formats: R1, palette formats, packed YUV 4:2:2 (spec/45_surface_formats.md R820 to R832 and
R880 to R881), and the channel conventions every texel decoder shares. -/
namespace Sys2Proof.Machine

/-- The default of a colour channel a format does not supply: 0 (R822). -/
def colourDefault : Chan := .unorm 0 1

/-- The default of an alpha channel a format does not supply: 1.0 (R822). -/
def alphaDefault : Chan := .unorm 1 1

/-- The number of a texel of a 4x4 block, row by row: `4 * row + column` (R954, R1000). -/
def texelNumber (n : Pos) : Nat := 4 * n.row.toNat + n.col.toNat

/-- An 8-bit UNORM channel (R820). -/
def u8 (n : Nat) : Chan := .unorm n 255

/-- An 8-bit colour channel of a format with or without sRGB (R850). -/
def colour8 (srgb : Bool) (n : Nat) : Chan := if srgb then .linear (Config.srgbToLinear (BitVec.ofNat 8 n)) else u8 n

/-- A texel of three 8-bit colour channels, with an alpha. -/
def rgbTexel (srgb : Bool) (r g b : Nat) (a : Chan) : Texel :=
  { r := colour8 srgb r, g := colour8 srgb g, b := colour8 srgb b, a := a }

/-- `FMT.R1` (R824): the bit of texel `k`, in all four channels. -/
def decodeR1 (b : BitVec 8) (k : Nat) : Texel :=
  let t : Chan := .unorm (b2n (bit b k)) 1
  { r := t, g := t, b := t, a := t }

/-- FMT.R1 (R824). -/
def execFmtR1 (b : BitVec 8) (k : BitVec 3) (s : State) : Host.Outcome State Fault Refusal :=
  answer s (.texel (decodeR1 b k.toNat))

/-- A palette entry (R826). -/
def paletteEntry (s : State) (i : Nat) : DWord := s.palette.getD i 0

/-- `RGB = Palette[i][23:0]` with an alpha of its own (R827 to R830). -/
def paletteAlpha (s : State) (i alpha : Nat) : Result :=
  .paletteRgb (BitVec.ofNat 24 (paletteEntry s i).toNat) (u8 alpha)

/-- A 4-bit alpha in both nibbles of an 8-bit value (R827). -/
def replicate4 (a : Nat) : Nat := 16 * a + a

/-- FMT.P4A4_UNORM (R827). -/
def execFmtP4A4 (p : BitVec 8) (s : State) : Host.Outcome State Fault Refusal :=
  answer s (paletteAlpha s (bits p 3 0) (replicate4 (bits p 7 4)))

/-- FMT.A4P4_UNORM (R828). -/
def execFmtA4P4 (p : BitVec 8) (s : State) : Host.Outcome State Fault Refusal :=
  answer s (paletteAlpha s (bits p 7 4) (replicate4 (bits p 3 0)))

/-- FMT.P8A8_UNORM (R829). -/
def execFmtP8A8 (p : BitVec 16) (s : State) : Host.Outcome State Fault Refusal :=
  answer s (paletteAlpha s (bits p 7 0) (bits p 15 8))

/-- FMT.A8P8_UNORM (R830). -/
def execFmtA8P8 (p : BitVec 16) (s : State) : Host.Outcome State Fault Refusal :=
  answer s (paletteAlpha s (bits p 15 8) (bits p 7 0))

/-- FMT.P8_UNORM (R831). -/
def execFmtP8 (p : BitVec 8) (s : State) : Host.Outcome State Fault Refusal :=
  answer s (.argb (paletteEntry s p.toNat))

/-- The 2-bit index of texel `k` of a byte; the order inside the byte is a parameter (R832, U19). -/
def p2Index (low : Bool) (p : BitVec 8) (k : Nat) : Nat :=
  if low then bits p (2 * k + 1) (2 * k) else bits p (7 - 2 * k) (6 - 2 * k)

/-- FMT.P2_UNORM (R832). -/
def execFmtP2 (p : BitVec 8) (k : BitVec 2) (s : State) : Host.Outcome State Fault Refusal :=
  answer s (.argb (paletteEntry s (p2Index s.par.p2LowFirst p k.toNat)))

/-- A pixel of Y, U, V: Cr to red, Y to green, Cb to blue (R880). -/
def yuvTexel (y u v : Nat) : Texel := { r := u8 v, g := u8 y, b := u8 u, a := alphaDefault }

/-- The four bytes of a DWord as Y0, Y1, U, V (R881). -/
def yuvBytes (f : YuvFormat) (v : BitVec 32) : Nat × Nat × Nat × Nat :=
  let b0 := bits v 7 0
  let b1 := bits v 15 8
  let b2 := bits v 23 16
  let b3 := bits v 31 24
  match f with
  | .normal => (b0, b2, b1, b3)
  | .swapUvy => (b1, b3, b2, b0)
  | .swapUv => (b0, b2, b3, b1)
  | .swapY => (b1, b3, b0, b2)

/-- The two pixels of a DWord (R881). -/
def decodeYuv (f : YuvFormat) (v : BitVec 32) : Texel × Texel :=
  match yuvBytes f v with
  | (y0, y1, u, w) => (yuvTexel y0 u w, yuvTexel y1 u w)

/-- FMT.YUV422 (R881). -/
def execFmtYuv422 (f : YuvFormat) (v : BitVec 32) (s : State) : Host.Outcome State Fault Refusal :=
  answer s (.texels (decodeYuv f v).1 (decodeYuv f v).2)

/-! ### Planar video and depth: where the parts of a surface lie -/

/-- The chroma arrangements of planar YUV (R884): half pitch, or full pitch. -/
inductive ChromaPitch where
  | half | full
  deriving DecidableEq, Repr

/-- First rows of the two chroma planes, the upper one first, in rows of the chroma pitch (R884). -/
def chromaRows (k : ChromaPitch) (yHeight vHeight : Nat) : Nat × Nat :=
  match k with
  | .half => (yHeight * 2, yHeight * 2 + vHeight)
  | .full => (yHeight, yHeight + vHeight)

/-- The offset of a chroma sample from the base of its surface (R884). -/
def chromaOffset (k : ChromaPitch) (pitch row x y bytes : Nat) : Nat :=
  (row + y) * (match k with | .half => pitch / 2 | .full => pitch) + x * bytes

/-- Depth and stencil of a depth pixel of a format with both (R896). -/
def depthD24S8 (p : DWord) : BitVec 24 × BitVec 8 := (BitVec.ofNat 24 (bits p 23 0), BitVec.ofNat 8 (bits p 31 24))
def depthD32S8 (p : QWord) : BitVec 32 × BitVec 8 := (BitVec.ofNat 32 (bits p 31 0), BitVec.ofNat 8 (bits p 39 32))

end Sys2Proof.Machine
end

