-- ==== Sys2Proof/Machine/AstcIse.lean ====
section
/-! DEFINITION. ASTC: integer sequences and unquantisation (spec/48_astc.md R1098, R1106, R1114 to R1120, R1132 to
R1133). -/
namespace Sys2Proof.Machine

/-- The form of a range of values (R1114): a trit or a quint, or neither, and bits. -/
structure IseRange where
  trits : Nat
  quints : Nat
  bits : Nat
  deriving DecidableEq, Repr

/-- `ceil(a / b)`. -/
def ceilDiv (a b : Nat) : Nat := (a + b - 1) / b

/-- The length in bits of a sequence of `c` values (R1106, R1114). -/
def iseLength (c : Nat) (r : IseRange) : Nat :=
  ceilDiv (c * 8 * r.trits) 5 + ceilDiv (c * 7 * r.quints) 3 + c * r.bits

/-- The number of values of a range. -/
def IseRange.count (r : IseRange) : Nat := 3 ^ r.trits * 5 ^ r.quints * 2 ^ r.bits

/-- The index ranges (R1098). -/
def indexRange (high : Bool) (r : Nat) : IseRange :=
  match high, r with
  | false, 2 => ⟨0, 0, 1⟩
  | false, 3 => ⟨1, 0, 0⟩
  | false, 4 => ⟨0, 0, 2⟩
  | false, 5 => ⟨0, 1, 0⟩
  | false, 6 => ⟨1, 0, 1⟩
  | false, _ => ⟨0, 0, 3⟩
  | true, 2 => ⟨0, 1, 1⟩
  | true, 3 => ⟨1, 0, 2⟩
  | true, 4 => ⟨0, 0, 4⟩
  | true, 5 => ⟨0, 1, 2⟩
  | true, 6 => ⟨1, 0, 3⟩
  | true, _ => ⟨0, 0, 5⟩

/-- The colour ranges in descending order of size, 0..255 to 0..5 (R1106, R1120). -/
def colourRanges : List IseRange :=
  [⟨0, 0, 8⟩, ⟨1, 0, 6⟩, ⟨0, 1, 5⟩, ⟨0, 0, 7⟩, ⟨1, 0, 5⟩, ⟨0, 1, 4⟩, ⟨0, 0, 6⟩, ⟨1, 0, 4⟩, ⟨0, 1, 3⟩, ⟨0, 0, 5⟩,
   ⟨1, 0, 3⟩, ⟨0, 1, 2⟩, ⟨0, 0, 4⟩, ⟨1, 0, 2⟩, ⟨0, 1, 1⟩, ⟨0, 0, 3⟩, ⟨1, 0, 1⟩]

/-- The largest colour range whose sequence of `c` values fits (R1106). -/
def pickRange : List IseRange → Nat → Nat → IseRange
  | [], _, _ => ⟨1, 0, 1⟩
  | r :: rs, c, room => if iseLength c r ≤ room then r else pickRange rs c room

/-- The five trits of the 8 bits `T` (R1116), `t0` first. -/
def tritsOf (t : Nat) : List Nat :=
  let low (c t3 t4 : Nat) : List Nat :=
    if nbits c 1 0 = 3 then [2 * nbit c 3 + nbit c 2 * (1 - nbit c 3), nbit c 4, 2, t3, t4]
    else if nbits c 3 2 = 3 then [nbits c 1 0, 2, 2, t3, t4]
    else [2 * nbit c 1 + nbit c 0 * (1 - nbit c 1), nbits c 3 2, nbit c 4, t3, t4]
  if nbits t 4 2 = 7 then low (4 * nbits t 7 5 + nbits t 1 0) 2 2
  else if nbits t 6 5 = 3 then low (nbits t 4 0) (nbit t 7) 2
  else low (nbits t 4 0) (nbits t 6 5) (nbit t 7)

/-- The three quints of the 7 bits `Q` (R1117, U30), `q0` first. -/
def quintsOf (q : Nat) : List Nat :=
  let low (c q2 : Nat) : List Nat :=
    if nbits c 2 0 = 5 then [nbits c 4 3, 4, q2] else [nbits c 2 0, nbits c 4 3, q2]
  if nbits q 2 1 = 3 ∧ nbits q 6 5 = 0 then
    let k := nbit q 0
    [4, 4, 4 * k + 2 * (nbit q 4 * (1 - k)) + nbit q 3 * (1 - k)]
  else if nbits q 2 1 = 3 then low (8 * nbits q 4 3 + 2 * (3 - nbits q 6 5) + nbit q 0) 4
  else low (nbits q 4 0) (nbits q 6 5)

/-- One decoded value: the trit or quint, and the bits. -/
structure IseVal where
  d : Nat
  m : Nat
  deriving DecidableEq, Repr

/-- Value `i` of a sequence whose stream is the number `s` (R1115 to R1117). -/
def iseValue (r : IseRange) (s i : Nat) : IseVal :=
  let n := r.bits
  if r.trits = 1 then
    let b := s >>> (i / 5 * (8 + 5 * n))
    let t := (b >>> n) % 4 + 4 * ((b >>> (2 * n + 2)) % 4) + 16 * ((b >>> (3 * n + 4)) % 2)
      + 32 * ((b >>> (4 * n + 5)) % 4) + 128 * ((b >>> (5 * n + 7)) % 2)
    let m := match i % 5 with
      | 0 => b
      | 1 => b >>> (n + 2)
      | 2 => b >>> (2 * n + 4)
      | 3 => b >>> (3 * n + 5)
      | _ => b >>> (4 * n + 7)
    { d := (tritsOf t).getD (i % 5) 0, m := m % 2 ^ n }
  else if r.quints = 1 then
    let b := s >>> (i / 3 * (7 + 3 * n))
    let q := (b >>> n) % 8 + 8 * ((b >>> (2 * n + 3)) % 4) + 32 * ((b >>> (3 * n + 5)) % 4)
    let m := match i % 3 with
      | 0 => b
      | 1 => b >>> (n + 3)
      | _ => b >>> (2 * n + 5)
    { d := (quintsOf q).getD (i % 3) 0, m := m % 2 ^ n }
  else { d := 0, m := (s >>> (i * n)) % 2 ^ n }

/-- A number given by its bits, most significant first: each is a bit of `m` or 0 (R1120, R1133 column "B"). -/
def bitPattern (ps : List (Option Nat)) (m : Nat) : Nat :=
  ps.foldl (fun acc p => 2 * acc + (match p with | some k => nbit m k | none => 0)) 0

/-- Columns B and C of R1120, by trit or quint and number of bits. -/
def colourBC (trit : Bool) (n : Nat) : List (Option Nat) × Nat :=
  let o : Option Nat := none
  let b : Option Nat := some 1
  let c : Option Nat := some 2
  let d : Option Nat := some 3
  let e : Option Nat := some 4
  let f : Option Nat := some 5
  match trit, n with
  | true, 1 => ([], 204)
  | false, 1 => ([], 113)
  | true, 2 => ([b, o, o, o, b, o, b, b, o], 93)
  | false, 2 => ([b, o, o, o, o, b, b, o, o], 54)
  | true, 3 => ([c, b, o, o, o, c, b, c, b], 44)
  | false, 3 => ([c, b, o, o, o, o, c, b, c], 26)
  | true, 4 => ([d, c, b, o, o, o, d, c, b], 22)
  | false, 4 => ([d, c, b, o, o, o, o, d, c], 13)
  | true, 5 => ([e, d, c, b, o, o, o, e, d], 11)
  | false, 5 => ([e, d, c, b, o, o, o, o, e], 6)
  | _, _ => ([f, e, d, c, b, o, o, o, f], 5)

/-- Bit replication of an `n`-bit value to `w` bits, `n ≥ 1` (R1120, R1133): the top `w` bits of the value repeated. -/
def replicateBits (n w m : Nat) : Nat :=
  ((List.range 8).foldl (fun acc _ => acc * 2 ^ n + m) 0) >>> (8 * n - w)

/-- Colour unquantisation to 0..255 (R1120). -/
def unquantizeColour (r : IseRange) (v : IseVal) : Nat :=
  if r.trits = 0 ∧ r.quints = 0 then replicateBits r.bits 8 v.m
  else
    let bc := colourBC (r.trits == 1) r.bits
    let a := if nbit v.m 0 = 1 then 0x1FF else 0
    let t := (v.d * bc.2 + bitPattern bc.1 v.m) ^^^ a
    (a &&& 0x80) ||| (t >>> 2)

/-- Columns B and C of R1133. -/
def indexBC (trit : Bool) (n : Nat) : List (Option Nat) × Nat :=
  let o : Option Nat := none
  let b : Option Nat := some 1
  let c : Option Nat := some 2
  match trit, n with
  | true, 1 => ([], 50)
  | false, 1 => ([], 28)
  | true, 2 => ([b, o, o, o, b, o, b], 23)
  | false, 2 => ([b, o, o, o, o, b, o], 13)
  | _, _ => ([c, b, o, o, o, c, b], 11)

/-- Index unquantisation to 0..63 (R1133). -/
def unquantizeIndex63 (r : IseRange) (v : IseVal) : Nat :=
  if r.trits = 0 ∧ r.quints = 0 then replicateBits r.bits 6 v.m
  else if r.bits = 0 then
    (if r.trits = 1 then [0, 32, 63].getD v.d 0 else [0, 16, 32, 47, 63].getD v.d 0)
  else
    let bc := indexBC (r.trits == 1) r.bits
    let a := if nbit v.m 0 = 1 then 0x7F else 0
    let t := (v.d * bc.2 + bitPattern bc.1 v.m) ^^^ a
    (a &&& 0x20) ||| (t >>> 2)

/-- Index unquantisation to 0..64 (R1133). -/
def unquantizeIndex (r : IseRange) (v : IseVal) : Nat :=
  let t := unquantizeIndex63 r v
  if t > 32 then t + 1 else t

/-- The index stream of `len` bits: bit `n` of the stream is bit `127 - n` of the block (R1132). -/
def reversedStream (v : BitVec 128) (len : Nat) : Nat :=
  (List.range len).foldr (fun k acc => 2 * acc + b2n (bit v (127 - k))) 0

end Sys2Proof.Machine
end

