-- ==== Sys2Proof/Machine/AstcEndpoints.lean ====
section
/-! DEFINITION. ASTC: colour endpoints (spec/48_astc.md R1121 to R1129). -/
namespace Sys2Proof.Machine

/-- One endpoint colour. -/
structure Ep where
  r : Int
  g : Int
  b : Int
  a : Int
  deriving DecidableEq, Repr

/-- An endpoint pair `(e0, e1)`. -/
structure EpPair where
  e0 : Ep
  e1 : Ep
  deriving DecidableEq, Repr

/-- `bit_transfer_signed(a, b)` (R1122): the new `a` and `b`. -/
def bitTransferSigned (a b : Nat) : Int × Int :=
  (signExt (a >>> 1 &&& 0x3F) 6, ((b >>> 1 ||| (a &&& 0x80) : Nat) : Int))

/-- `blue_contract` (R1122); `>> 1` is the floor. -/
def blueContract (r g b a : Int) : Ep := { r := (r + b) / 2, g := (g + b) / 2, b := b, a := a }

/-- `clamp_unorm8` (R1122). -/
def clampUnorm8 (c : Ep) : Ep :=
  { r := clampI c.r 0 255, g := clampI c.g 0 255, b := clampI c.b 0 255, a := clampI c.a 0 255 }

/-- A grey endpoint. -/
def grey (l a : Int) : Ep := { r := l, g := l, b := l, a := a }

/-- A base-and-offset pair after the transfers, with the test on the sum of the offsets (modes 9 and 13 of R1121). -/
def baseOffset (r g b a : Int × Int) : EpPair :=
  let sum : Ep := { r := r.2 + r.1, g := g.2 + g.1, b := b.2 + b.1, a := a.2 + a.1 }
  let base : Ep := { r := r.2, g := g.2, b := b.2, a := a.2 }
  if r.1 + g.1 + b.1 ≥ 0 then { e0 := clampUnorm8 base, e1 := clampUnorm8 sum }
  else { e0 := clampUnorm8 (blueContract sum.r sum.g sum.b sum.a)
         e1 := clampUnorm8 (blueContract base.r base.g base.b base.a) }

/-- A direct pair (modes 8 and 12 of R1121). -/
def directPair (v : Nat → Nat) (a0 a1 : Int) : EpPair :=
  if v 1 + v 3 + v 5 ≥ v 0 + v 2 + v 4 then
    { e0 := { r := v 0, g := v 2, b := v 4, a := a0 }, e1 := { r := v 1, g := v 3, b := v 5, a := a1 } }
  else { e0 := blueContract (v 1) (v 3) (v 5) a1, e1 := blueContract (v 0) (v 2) (v 4) a0 }

/-- A base-and-scale pair (modes 6 and 10 of R1121). -/
def baseScale (v : Nat → Nat) (a0 a1 : Int) : EpPair :=
  { e0 := { r := ((v 0 * v 3) >>> 8 : Nat), g := ((v 1 * v 3) >>> 8 : Nat), b := ((v 2 * v 3) >>> 8 : Nat), a := a0 }
    e1 := { r := v 0, g := v 1, b := v 2, a := a1 } }

/-- The HDR code of 1.0 (R1124). -/
def hdrOne : Int := 0x780

/-- Mode 2 (R1124). -/
def endpoints2 (v : Nat → Nat) : EpPair :=
  if v 1 ≥ v 0 then { e0 := grey (v 0 <<< 4 : Nat) hdrOne, e1 := grey (v 1 <<< 4 : Nat) hdrOne }
  else { e0 := grey ((v 1 <<< 4 : Nat) + 8) hdrOne, e1 := grey ((v 0 <<< 4 : Nat) - 8) hdrOne }

/-- Mode 3 (R1125). -/
def endpoints3 (v : Nat → Nat) : EpPair :=
  let m := nbit (v 0) 7 = 1
  let y0 := if m then ((v 1 &&& 0xE0) <<< 4) ||| ((v 0 &&& 0x7F) <<< 2)
    else ((v 1 &&& 0xF0) <<< 4) ||| ((v 0 &&& 0x7F) <<< 1)
  let d := if m then (v 1 &&& 0x1F) <<< 2 else (v 1 &&& 0x0F) <<< 1
  { e0 := grey y0 hdrOne, e1 := grey (min 0xFFF (y0 + d) : Nat) hdrOne }

/-- `if (ohm & mask) … |= x << sh` with `ohm = 1 << mode` (R1126, R1127). -/
def extraBit (mask mode x sh : Nat) : Nat := if nbit mask mode = 1 then x <<< sh else 0

/-- Clamp to 12 bits. -/
def clamp12 (x : Int) : Int := clampI x 0 0xFFF

/-- Swap red with green (1) or with blue (2) (R1126, R1127). -/
def swapMajor (k : Nat) (c : Ep) : Ep :=
  match k with
  | 1 => { c with r := c.g, g := c.r }
  | 2 => { c with r := c.b, b := c.r }
  | _ => c

/-- The major component and the mode of mode 7 (R1126). -/
def mode7Select (mv : Nat) : Nat × Nat :=
  if mv &&& 0xC ≠ 0xC then (mv >>> 2, mv &&& 3) else if mv ≠ 0xF then (mv &&& 3, 4) else (0, 5)

/-- Mode 7 (R1126). -/
def endpoints7 (v : Nat → Nat) : EpPair :=
  let mv := ((v 0 &&& 0xC0) >>> 6) ||| ((v 1 &&& 0x80) >>> 5) ||| ((v 2 &&& 0x80) >>> 4)
  let k := (mode7Select mv).1
  let mode := (mode7Select mv).2
  let x0 := nbit (v 1) 6
  let x1 := nbit (v 1) 5
  let x2 := nbit (v 2) 6
  let x3 := nbit (v 2) 5
  let x4 := nbit (v 3) 7
  let x5 := nbit (v 3) 6
  let x6 := nbit (v 3) 5
  let green := (v 1 &&& 0x1F) ||| extraBit 0x30 mode x0 6 ||| extraBit 0x3A mode x1 5
  let blue := (v 2 &&& 0x1F) ||| extraBit 0x30 mode x2 6 ||| extraBit 0x3A mode x3 5
  let scale := (v 3 &&& 0x1F) ||| extraBit 0x3D mode x6 5 ||| extraBit 0x2D mode x5 6 ||| extraBit 0x04 mode x4 7
  let red := (v 0 &&& 0x3F) ||| extraBit 0x3B mode x4 6 ||| extraBit 0x04 mode x3 6 ||| extraBit 0x10 mode x5 7
    ||| extraBit 0x0F mode x2 7 ||| extraBit 0x05 mode x1 8 ||| extraBit 0x0A mode x0 8 ||| extraBit 0x05 mode x0 9
    ||| extraBit 0x02 mode x6 9 ||| extraBit 0x01 mode x3 10 ||| extraBit 0x02 mode x5 10
  let sh := [1, 1, 2, 3, 4, 5].getD mode 0
  let r : Int := (red <<< sh : Nat)
  let g : Int := if mode = 5 then (green <<< sh : Nat) else r - (green <<< sh : Nat)
  let b : Int := if mode = 5 then (blue <<< sh : Nat) else r - (blue <<< sh : Nat)
  let sc : Int := (scale <<< sh : Nat)
  let c := swapMajor k { r := r, g := g, b := b, a := hdrOne }
  { e0 := { r := clamp12 (c.r - sc), g := clamp12 (c.g - sc), b := clamp12 (c.b - sc), a := hdrOne }
    e1 := { r := clamp12 c.r, g := clamp12 c.g, b := clamp12 c.b, a := hdrOne } }

/-- Mode 11 (R1127). -/
def endpoints11 (v : Nat → Nat) : EpPair :=
  let k := nbit (v 4) 7 + 2 * nbit (v 5) 7
  if k = 3 then
    { e0 := { r := (v 0 <<< 4 : Nat), g := (v 2 <<< 4 : Nat), b := ((v 4 &&& 0x7F) <<< 5 : Nat), a := hdrOne }
      e1 := { r := (v 1 <<< 4 : Nat), g := (v 3 <<< 4 : Nat), b := ((v 5 &&& 0x7F) <<< 5 : Nat), a := hdrOne } }
  else
    let mode := nbit (v 1) 7 + 2 * nbit (v 2) 7 + 4 * nbit (v 3) 7
    let x0 := nbit (v 2) 6
    let x1 := nbit (v 3) 6
    let x2 := nbit (v 4) 6
    let x3 := nbit (v 5) 6
    let x4 := nbit (v 4) 5
    let x5 := nbit (v 5) 5
    let dbits := [7, 6, 7, 6, 5, 6, 5, 6].getD mode 0
    let sh := (mode >>> 1) ^^^ 3
    let va : Int := ((v 0 ||| ((v 1 &&& 0x40) <<< 2) ||| extraBit 0xA4 mode x0 9 ||| extraBit 0x08 mode x2 9
      ||| extraBit 0x50 mode x4 9 ||| extraBit 0x50 mode x5 10 ||| extraBit 0xA0 mode x1 10
      ||| extraBit 0xC0 mode x2 11) <<< sh : Nat)
    let vb0 : Int := (((v 2 &&& 0x3F) ||| extraBit 0x5B mode x0 6 ||| extraBit 0x12 mode x2 7) <<< sh : Nat)
    let vb1 : Int := (((v 3 &&& 0x3F) ||| extraBit 0x5B mode x1 6 ||| extraBit 0x12 mode x3 7) <<< sh : Nat)
    let vc : Int := (((v 1 &&& 0x3F) ||| extraBit 0x04 mode x1 6 ||| extraBit 0xE8 mode x3 6
      ||| extraBit 0x20 mode x2 7) <<< sh : Nat)
    let vd0 : Int := signExt (v 4 &&& 0x7F) dbits * (2 ^ sh : Nat)
    let vd1 : Int := signExt (v 5 &&& 0x7F) dbits * (2 ^ sh : Nat)
    { e0 := swapMajor k { r := clamp12 (va - vc), g := clamp12 (va - vb0 - vc - vd0)
                          b := clamp12 (va - vb1 - vc - vd1), a := hdrOne }
      e1 := swapMajor k { r := clamp12 va, g := clamp12 (va - vb0), b := clamp12 (va - vb1), a := hdrOne } }

/-- A pair with other alphas. -/
def EpPair.withAlpha (p : EpPair) (a0 a1 : Int) : EpPair :=
  { e0 := { p.e0 with a := a0 }, e1 := { p.e1 with a := a1 } }

/-- The alphas of mode 15 (R1129). -/
def alphas15 (v6 v7 : Nat) : Int × Int :=
  let mode := nbit v6 7 + 2 * nbit v7 7
  let a := v6 &&& 0x7F
  let b := v7 &&& 0x7F
  if mode = 3 then ((a <<< 5 : Nat), (b <<< 5 : Nat))
  else
    let x := a ||| ((b <<< (mode + 1)) &&& 0x780)
    let y : Int := ((b &&& (0x3F >>> mode)) ^^^ (0x20 >>> mode) : Nat) - (0x20 >>> mode : Nat)
    let e0 : Int := (x <<< (4 - mode) : Nat)
    (e0, clamp12 (y * (2 ^ (4 - mode) : Nat) + e0))

/-- The endpoints of a colour endpoint mode from its unquantised values (R1121, R1124 to R1129). -/
def endpointsOf (cem : Nat) (v : Nat → Nat) : EpPair :=
  match cem with
  | 0 => { e0 := grey (v 0) 255, e1 := grey (v 1) 255 }
  | 1 =>
    let l0 := v 0 >>> 2 ||| (v 1 &&& 0xC0)
    { e0 := grey l0 255, e1 := grey (min 255 (l0 + (v 1 &&& 0x3F)) : Nat) 255 }
  | 2 => endpoints2 v
  | 3 => endpoints3 v
  | 4 => { e0 := grey (v 0) (v 2), e1 := grey (v 1) (v 3) }
  | 5 =>
    let l := bitTransferSigned (v 1) (v 0)
    let a := bitTransferSigned (v 3) (v 2)
    { e0 := clampUnorm8 (grey l.2 a.2), e1 := clampUnorm8 (grey (l.2 + l.1) (a.2 + a.1)) }
  | 6 => baseScale v 255 255
  | 7 => endpoints7 v
  | 8 => directPair v 255 255
  | 9 =>
    baseOffset (bitTransferSigned (v 1) (v 0)) (bitTransferSigned (v 3) (v 2)) (bitTransferSigned (v 5) (v 4)) (0, 255)
  | 10 => baseScale v (v 4) (v 5)
  | 11 => endpoints11 v
  | 12 => directPair v (v 6) (v 7)
  | 13 =>
    baseOffset (bitTransferSigned (v 1) (v 0)) (bitTransferSigned (v 3) (v 2)) (bitTransferSigned (v 5) (v 4))
      (bitTransferSigned (v 7) (v 6))
  | 14 => (endpoints11 v).withAlpha (v 6) (v 7)
  | _ => (endpoints11 v).withAlpha (alphas15 (v 6) (v 7)).1 (alphas15 (v 6) (v 7)).2

/-- Whether a mode is an HDR mode (R1104). -/
def hdrMode (cem : Nat) : Bool := [2, 3, 7, 11, 14, 15].contains cem

end Sys2Proof.Machine
end

