-- ==== Sys2Proof/Machine/Astc.lean ====
section
/-! DEFINITION. ASTC: surface formats, block configuration, decoding of a texel, the file header (spec/48_astc.md R1082
to R1112, R1130 to R1152). -/
namespace Sys2Proof.Machine

/-! ### Surface formats -/

/-- An ASTC surface format: the footprint, and the operation mode (R1083, R1084). -/
structure AstcFormat where
  bs : Nat
  bt : Nat
  br : Nat
  is3D : Bool
  srgb : Bool
  hdr : Bool
  deriving DecidableEq, Repr

/-- The 2D footprints, by the low 6 bits of the format value (R1083). -/
def astcFootprint2D (code : Nat) : Option (Nat × Nat) :=
  match code with
  | 0x00 => some (4, 4) | 0x08 => some (5, 4) | 0x09 => some (5, 5) | 0x11 => some (6, 5) | 0x12 => some (6, 6)
  | 0x21 => some (8, 5) | 0x22 => some (8, 6) | 0x31 => some (10, 5) | 0x32 => some (10, 6) | 0x24 => some (8, 8)
  | 0x34 => some (10, 8) | 0x36 => some (10, 10) | 0x3E => some (12, 10) | 0x3F => some (12, 12)
  | _ => none

/-- The 3D footprints (R1083). -/
def astcFootprint3D (code : Nat) : Option (Nat × Nat × Nat) :=
  match code with
  | 0x00 => some (3, 3, 3) | 0x10 => some (4, 3, 3) | 0x14 => some (4, 4, 3) | 0x15 => some (4, 4, 4)
  | 0x25 => some (5, 4, 4) | 0x29 => some (5, 5, 4) | 0x2A => some (5, 5, 5) | 0x3A => some (6, 5, 5)
  | 0x3E => some (6, 6, 5) | 0x3F => some (6, 6, 6)
  | _ => none

/-- The format of a 9-bit value; `none` for one that is not in the table (R1082, R1083). -/
def astcFormat (fmt : BitVec 9) : Option AstcFormat :=
  let full := bit fmt 8
  let flt := bit fmt 6
  if bit fmt 7 then
    (if full == flt then
      (astcFootprint3D (bits fmt 5 0)).map
        (fun d => { bs := d.1, bt := d.2.1, br := d.2.2, is3D := true, srgb := !flt, hdr := full })
     else none)
  else if full && !flt then none
  else (astcFootprint2D (bits fmt 5 0)).map
    (fun d => { bs := d.1, bt := d.2, br := 1, is3D := false, srgb := !flt, hdr := full })

/-! ### Index modes -/

/-- An index grid: its size, dual plane, and the range of its indices (R1098). -/
structure AstcGrid where
  n : Nat
  m : Nat
  q : Nat
  dual : Bool
  range : IseRange
  deriving DecidableEq, Repr

/-- What the 11 bits of the index mode say (R1099, R1100). -/
inductive IndexMode where
  | voidExtent
  | reserved
  | grid (g : AstcGrid)
  deriving DecidableEq, Repr

/-- A grid with D, H and R. -/
def gridOf (n m q : Nat) (d h : Bool) (r : Nat) : IndexMode :=
  .grid { n := n, m := m, q := q, dual := d, range := indexRange h r }

/-- The index mode of a 2D block (R1099). -/
def indexMode2D (im : Nat) : IndexMode :=
  let a := nbits im 6 5
  let b := nbits im 8 7
  let b1 := nbit im 7
  let d := nbit im 10 == 1
  let h := nbit im 9 == 1
  let rLow := 2 * nbits im 1 0 + nbit im 4
  let rHigh := 2 * nbits im 3 2 + nbit im 4
  if nbits im 8 0 = 0x1FC then .voidExtent
  else if nbits im 3 0 = 0 then .reserved
  else if nbits im 1 0 ≠ 0 then
    match nbits im 3 2 with
    | 0 => gridOf (b + 4) (a + 2) 1 d h rLow
    | 1 => gridOf (b + 8) (a + 2) 1 d h rLow
    | 2 => gridOf (a + 2) (b + 8) 1 d h rLow
    | _ => if nbit im 8 = 0 then gridOf (a + 2) (b1 + 6) 1 d h rLow else gridOf (b1 + 2) (a + 2) 1 d h rLow
  else
    match b with
    | 0 => gridOf 12 (a + 2) 1 d h rHigh
    | 1 => gridOf (a + 2) 12 1 d h rHigh
    | 2 => gridOf (a + 6) (nbits im 10 9 + 6) 1 false false rHigh
    | _ =>
      match a with
      | 0 => gridOf 6 10 1 d h rHigh
      | 1 => gridOf 10 6 1 d h rHigh
      | _ => .reserved

/-- The index mode of a 3D block (R1100). -/
def indexMode3D (im : Nat) : IndexMode :=
  let a := nbits im 6 5
  let b := nbits im 8 7
  let bHigh := nbits im 10 9
  let d := nbit im 10 == 1
  let h := nbit im 9 == 1
  let rHigh := 2 * nbits im 3 2 + nbit im 4
  if nbits im 8 0 = 0x1FC then .voidExtent
  else if nbits im 3 0 = 0 then .reserved
  else if nbits im 1 0 ≠ 0 then gridOf (a + 2) (b + 2) (nbits im 3 2 + 2) d h (2 * nbits im 1 0 + nbit im 4)
  else
    match b with
    | 0 => gridOf 6 (bHigh + 2) (a + 2) false false rHigh
    | 1 => gridOf (a + 2) 6 (bHigh + 2) false false rHigh
    | 2 => gridOf (a + 2) (bHigh + 2) 6 false false rHigh
    | _ =>
      match a with
      | 0 => gridOf 6 2 2 d h rHigh
      | 1 => gridOf 2 6 2 d h rHigh
      | 2 => gridOf 2 2 6 d h rHigh
      | _ => .reserved

/-! ### The configuration of a block -/

/-- The configuration of a block that is not void-extent and not an error block (R1094 to R1106). -/
structure AstcConfig where
  grid : AstcGrid
  parts : Nat
  cems : List Nat
  ccs : Nat
  colourStart : Nat
  indexBits : Nat
  colourRange : IseRange
  values : Nat
  deriving DecidableEq, Repr

/-- The colour endpoint modes of two to four partitions: `F` is the whole CEM field (R1105). -/
def cemsOf (parts f : Nat) : List Nat :=
  if f % 4 = 0 then List.replicate parts (nbits f 5 2)
  else (List.range parts).map (fun i => 4 * (f % 4 - 1 + nbit f (2 + i)) + nbits f (3 + parts + 2 * i) (2 + parts + 2 * i))

/-- The number of integers of a colour endpoint mode (R1104). -/
def cemValues (cem : Nat) : Nat := 2 * (cem / 4 + 1)

/-- The configuration of a block, `none` for an error block (R1106, R1146 items 2 to 8; R1150). -/
def astcConfig (f : AstcFormat) (v : BitVec 128) (g : AstcGrid) : Option AstcConfig :=
  let parts := bits v 12 11 + 1
  let planes := if g.dual then 2 else 1
  let count := g.n * g.m * g.q * planes
  let indexBits := iseLength count g.range
  if g.dual && parts == 4 then none
  else if g.n > f.bs ∨ g.m > f.bt ∨ g.q > f.br then none
  else if count > 64 then none
  else if indexBits > 96 ∨ indexBits < 24 then none
  else
    let extra := if parts = 1 ∨ bits v 24 23 = 0 then 0 else 3 * parts - 4
    let field := bits v 28 23 + bitsFrom v (128 - indexBits - extra) extra * 64
    let cems := if parts = 1 then [bits v 16 13] else cemsOf parts field
    let config := (if parts = 1 then 17 else if extra = 0 then 29 else 25 + 3 * parts) + (if g.dual then 2 else 0)
    let values := (cems.map cemValues).sum
    let room := 128 - config - indexBits
    if values > 18 then none
    else if config + indexBits > 128 ∨ room < ceilDiv (13 * values) 5 then none
    else
      some { grid := g, parts := parts, cems := cems
             ccs := if g.dual then bits v (127 - indexBits - extra) (126 - indexBits - extra) else 4
             colourStart := if parts = 1 then 17 else 29
             indexBits := indexBits, colourRange := pickRange colourRanges values room, values := values }
where
  /-- `n` bits from bit `lo` on. -/
  bitsFrom (v : BitVec 128) (lo n : Nat) : Nat := (v.toNat >>> lo) % 2 ^ n

/-- Unquantised colour value `k` (R1120). -/
def colourValue (c : AstcConfig) (v : BitVec 128) (k : Nat) : Nat :=
  let stream := (v.toNat >>> c.colourStart) % 2 ^ iseLength c.values c.colourRange
  unquantizeColour c.colourRange (iseValue c.colourRange stream k)

/-- The colour values of a partition, from its `v0` on; the partitions follow each other (R1130, U31). -/
def partitionValues (c : AstcConfig) (v : BitVec 128) (part k : Nat) : Nat :=
  colourValue c v (((c.cems.take part).map cemValues).sum + k)

/-- Unquantised index `k` of a plane (R1132, R1133); 0 outside the grid (R1135). -/
def indexValue (c : AstcConfig) (v : BitVec 128) (plane k : Nat) : Nat :=
  if k < c.grid.n * c.grid.m * c.grid.q then
    unquantizeIndex c.grid.range
      (iseValue c.grid.range (reversedStream v c.indexBits) (if c.grid.dual then 2 * k + plane else k))
  else 0

/-! ### Infill -/

/-- `gs`, `gt`, `gr` (R1134): the 4:4 fixed-point grid coordinate of a texel coordinate. -/
def gridCoord (block grid x : Nat) : Nat := ((1024 + block / 2) / (block - 1) * x * (grid - 1) + 32) >>> 6

/-- Bilinear infill (R1135). -/
def infill2D (dec : Nat → Nat) (n : Nat) (gs gt : Nat) : Nat :=
  let fs := gs % 16
  let ft := gt % 16
  let v0 := gs / 16 + gt / 16 * n
  let w11 := (fs * ft + 8) / 16
  (dec v0 * (16 + w11 - fs - ft) + dec (v0 + 1) * (fs - w11) + dec (v0 + n) * (ft - w11) + dec (v0 + n + 1) * w11 + 8) / 16

/-- The steps and weights of simplex infill (R1136): `s1`, `s2`, `w0`, `w1`, `w2`, `w3`. -/
def simplex (n m fs ft fr : Nat) : Nat × Nat × Nat × Nat × Nat × Nat :=
  match decide (fs > ft), decide (ft > fr), decide (fs > fr) with
  | true, true, _ => (1, n, 16 - fs, fs - ft, ft - fr, fr)
  | false, true, true => (n, 1, 16 - ft, ft - fs, fs - fr, fr)
  | true, false, true => (1, n * m, 16 - fs, fs - fr, fr - ft, ft)
  | true, false, false => (n * m, 1, 16 - fr, fr - fs, fs - ft, ft)
  | false, true, false => (n, n * m, 16 - ft, ft - fr, fr - fs, fs)
  | false, false, _ => (n * m, n, 16 - fr, fr - ft, ft - fs, fs)

/-- Simplex infill (R1136). -/
def infill3D (dec : Nat → Nat) (n m : Nat) (gs gt gr : Nat) : Nat :=
  let v0 := gs / 16 + gt / 16 * n + gr / 16 * n * m
  match simplex n m (gs % 16) (gt % 16) (gr % 16) with
  | (s1, s2, w0, w1, w2, w3) =>
    (dec v0 * w0 + dec (v0 + s1) * w1 + dec (v0 + s1 + s2) * w2 + dec (v0 + n * m + n + 1) * w3 + 8) / 16

/-- The effective index of a texel in a plane (R1134 to R1136). -/
def effectiveIndex (f : AstcFormat) (c : AstcConfig) (v : BitVec 128) (plane s t r : Nat) : Nat :=
  let gs := gridCoord f.bs c.grid.n s
  let gt := gridCoord f.bt c.grid.m t
  if f.is3D then infill3D (indexValue c v plane) c.grid.n c.grid.m gs gt (gridCoord f.br c.grid.q r)
  else infill2D (indexValue c v plane) c.grid.n gs gt

/-! ### Partition patterns -/

/-- `hash52` (R1143), on 32-bit values. -/
def hash52 (p : BitVec 32) : BitVec 32 :=
  let p := p ^^^ (p >>> 15)
  let p := p - (p <<< 17)
  let p := p + (p <<< 7)
  let p := p + (p <<< 4)
  let p := p ^^^ (p >>> 5)
  let p := p + (p <<< 16)
  let p := p ^^^ (p >>> 7)
  let p := p ^^^ (p >>> 3)
  let p := p ^^^ (p <<< 6)
  p ^^^ (p >>> 17)

/-- The largest of the first `parts` of `a`, `b`, `c`, `d`, the earliest on a tie (R1142). -/
def largest (parts a b c d : Nat) : Nat :=
  let d := if parts < 4 then 0 else d
  let c := if parts < 3 then 0 else c
  if a ≥ b ∧ a ≥ c ∧ a ≥ d then 0
  else if b ≥ c ∧ b ≥ d then 1
  else if c ≥ d then 2
  else 3

/-- `select_partition` (R1142). -/
def selectPartition (seed x y z parts : Nat) (small : Bool) : Nat :=
  let x := if small then 2 * x else x
  let y := if small then 2 * y else y
  let z := if small then 2 * z else z
  let seed := seed + (parts - 1) * 1024
  let h := (hash52 (BitVec.ofNat 32 seed)).toNat
  let sq (k : Nat) : Nat := ((h >>> k) % 16) * ((h >>> k) % 16)
  let e12 := (h >>> 30 ||| h <<< 2) % 16
  let u := if parts = 3 then 6 else 5
  let w := if nbit seed 1 = 1 then 4 else 5
  let sh1 := if nbit seed 0 = 1 then w else u
  let sh2 := if nbit seed 0 = 1 then u else w
  let sh3 := if nbit seed 4 = 1 then sh1 else sh2
  let a := (sq 0 >>> sh1) * x + (sq 4 >>> sh2) * y + (sq 26 >>> sh3) * z + h >>> 14
  let b := (sq 8 >>> sh1) * x + (sq 12 >>> sh2) * y + ((e12 * e12) >>> sh3) * z + h >>> 10
  let c := (sq 16 >>> sh1) * x + (sq 20 >>> sh2) * y + (sq 18 >>> sh3) * z + h >>> 6
  let d := (sq 24 >>> sh1) * x + (sq 28 >>> sh2) * y + (sq 22 >>> sh3) * z + h >>> 2
  largest parts (a % 64) (b % 64) (c % 64) (d % 64)

/-! ### Results -/

/-- FP16 of a UNORM16 value, rounded to zero (R1137). -/
def fp16OfUnorm16 (c : Nat) : BitVec 16 :=
  if c = 0xFFFF then 0x3C00
  else if c < 4 then BitVec.ofNat 16 (c * 0x100)
  else
    let k := Nat.log2 c
    BitVec.ofNat 16 (((k - 1) <<< 10) ||| (((c <<< (16 - k)) % 65536) >>> 6))

/-- FP16 of an interpolated HDR value (R1138). -/
def fp16OfHdr (c : Nat) : BitVec 16 :=
  let e := c / 2048
  let m := c % 2048
  let mt := if m < 512 then 3 * m else if m ≥ 1536 then 5 * m - 2048 else 4 * m - 512
  if e = 31 then 0x7BFF else BitVec.ofNat 16 (e * 1024 + mt / 8)

/-- The error texel (R1146, R1147). -/
def astcError (f : AstcFormat) : Texel :=
  if f.srgb then rgbTexel true 255 0 255 (u8 255)
  else if f.hdr then { r := .half 0xFFFF, g := .half 0xFFFF, b := .half 0xFFFF, a := .half 0xFFFF }
  else { r := .half 0x3C00, g := .half 0, b := .half 0x3C00, a := .half 0x3C00 }

/-- The final step for an LDR colour component (R1084, R1137). -/
def ldrColour (f : AstcFormat) (c : Nat) : Chan := if f.srgb then colour8 true (c / 256) else .half (fp16OfUnorm16 c)

/-- The final step for an LDR alpha (R1084, D42). -/
def ldrAlpha (f : AstcFormat) (c : Nat) : Chan := if f.srgb then u8 (c / 256) else .half (fp16OfUnorm16 c)

/-- Interpolation of two 16-bit values (R1137). -/
def interp16 (c0 c1 i : Nat) : Nat := (c0 * (64 - i) + c1 * i + 32) / 64

/-- An LDR component, expanded and interpolated (R1137). -/
def ldrInterp (f : AstcFormat) (c0 c1 : Int) (i : Nat) : Nat :=
  let x (c : Int) : Nat := if f.srgb then c.toNat * 256 + 0x80 else c.toNat * 256 + c.toNat
  interp16 (x c0) (x c1) i

/-- An HDR component (R1138). -/
def hdrComponent (c0 c1 : Int) (i : Nat) : Chan := .half (fp16OfHdr (interp16 (c0.toNat * 16) (c1.toNat * 16) i))

/-- A texel from its endpoints and the indices of R, G, B, A (R1137 to R1139). -/
def astcBlendTexel (f : AstcFormat) (cem : Nat) (p : EpPair) (ir ig ib ia : Nat) : Texel :=
  if hdrMode cem then
    { r := hdrComponent p.e0.r p.e1.r ir, g := hdrComponent p.e0.g p.e1.g ig, b := hdrComponent p.e0.b p.e1.b ib
      a := if cem = 14 then ldrAlpha f (ldrInterp f p.e0.a p.e1.a ia) else hdrComponent p.e0.a p.e1.a ia }
  else
    { r := ldrColour f (ldrInterp f p.e0.r p.e1.r ir), g := ldrColour f (ldrInterp f p.e0.g p.e1.g ig)
      b := ldrColour f (ldrInterp f p.e0.b p.e1.b ib), a := ldrAlpha f (ldrInterp f p.e0.a p.e1.a ia) }

/-- The texel of a block with a grid (R1150). -/
def astcGridTexel (f : AstcFormat) (v : BitVec 128) (g : AstcGrid) (s t r : Nat) : Texel :=
  match astcConfig f v g with
  | none => astcError f
  | some c =>
    let part := if c.parts = 1 then 0
      else selectPartition (bits v 22 13) s t r c.parts (decide (f.bs * f.bt * f.br < 31))
    let cem := c.cems.getD part 0
    if hdrMode cem && !f.hdr then astcError f
    else
      let i0 := effectiveIndex f c v 0 s t r
      let i1 := if g.dual then effectiveIndex f c v 1 s t r else i0
      let pick (k : Nat) : Nat := if c.ccs = k then i1 else i0
      astcBlendTexel f cem (endpointsOf cem (partitionValues c v part)) (pick 0) (pick 1) (pick 2) (pick 3)

/-- The extents of a void-extent block: low and high of each axis (R1107, R1108). -/
def voidExtents (is3D : Bool) (v : BitVec 128) : List (Nat × Nat) :=
  if is3D then [(bits v 18 10, bits v 27 19), (bits v 36 28, bits v 45 37), (bits v 54 46, bits v 63 55)]
  else [(bits v 24 12, bits v 37 25), (bits v 50 38, bits v 63 51)]

/-- The extents are not all all-1s, and one axis has its low not below its high (R1109, R1146 item 9). -/
def badExtents (is3D : Bool) (v : BitVec 128) : Bool :=
  let ones := if is3D then 0x1FF else 0x1FFF
  !(voidExtents is3D v).all (fun e => e.1 == ones && e.2 == ones)
    && (voidExtents is3D v).any (fun e => decide (e.1 ≥ e.2))

/-- The texel of a void-extent block (R1107 to R1109, R1150). -/
def astcVoidTexel (check : Bool) (f : AstcFormat) (v : BitVec 128) : Texel :=
  if !f.is3D && bits v 11 10 != 3 then astcError f
  else if check && badExtents f.is3D v then astcError f
  else if bit v 9 then
    (if f.hdr then { r := .half (BitVec.ofNat 16 (bits v 79 64)), g := .half (BitVec.ofNat 16 (bits v 95 80))
                     b := .half (BitVec.ofNat 16 (bits v 111 96)), a := .half (BitVec.ofNat 16 (bits v 127 112)) }
     else astcError f)
  else { r := ldrColour f (bits v 79 64), g := ldrColour f (bits v 95 80), b := ldrColour f (bits v 111 96)
         a := ldrAlpha f (bits v 127 112) }

/-- `ASTC.DECODE` (R1150). -/
def astcTexel (check : Bool) (f : AstcFormat) (v : BitVec 128) (s t r : Nat) : Texel :=
  match (if f.is3D then indexMode3D (bits v 10 0) else indexMode2D (bits v 10 0)) with
  | .voidExtent => astcVoidTexel check f v
  | .reserved => astcError f
  | .grid g => astcGridTexel f v g s t r

/-- A texel without a stated value, in the channel types of the format. -/
def astcFreeTexel (f : AstcFormat) (s : State) : Texel × State :=
  let b := freeQ s
  let h (k : Nat) : BitVec 16 := BitVec.ofNat 16 (b.1.toNat >>> (16 * k))
  let c (k : Nat) : Chan := if f.srgb then .linear (h k) else .half (h k)
  let a : Chan := if f.srgb then u8 ((h 3).toNat % 256) else .half (h 3)
  ({ r := c 0, g := c 1, b := c 2, a := a }, b.2)

/-- ASTC.DECODE (R1150). A format value that is not in the table is not ASTC (U34); a 3D format needs
`ASTC_3D_SUPPORTED` (U32, D38); nothing is stated of a texel outside the footprint (log entry 33). -/
def execAstc (v : BitVec 128) (fmt : BitVec 9) (s t r : BitVec 4) (st : State) : Host.Outcome State Fault Refusal :=
  match astcFormat fmt with
  | none => .refused .notAFormat
  | some f =>
    if f.is3D && !st.par.astc3D then .refused .astc3DUnsupported
    else if s.toNat < f.bs ∧ t.toNat < f.bt ∧ r.toNat < f.br then
      answer st (.texel (astcTexel st.par.astcCheckVoidExtent f v s.toNat t.toNat r.toNat))
    else
      let x := astcFreeTexel f st
      answer x.2 (.texel x.1)

/-! ### The file header -/

/-- The size of an axis at a LOD (R1088). -/
def lodSize (n l : Nat) : Nat := max 1 (n >>> l)

/-- Block dimensions of an ASTC file (R1086). -/
def astcDims (bw bh bd : Nat) : Bool :=
  (bd == 1 && [4, 5, 6, 8, 10, 12].contains bw && [4, 5, 6, 8, 10, 12].contains bh)
    || ([3, 4, 5, 6].contains bw && [3, 4, 5, 6].contains bh && [3, 4, 5, 6].contains bd)

/-- `nB_L` (R1088). -/
def astcBlocks (h : AstcHeader) (l : Nat) : Nat :=
  ceilDiv (lodSize h.width l) h.bw * ceilDiv (lodSize h.height l) h.bh * ceilDiv (lodSize h.depth l) h.bd

/-- The fields of the header (R1087, R1152). -/
def astcFields (h : BitVec 128) : AstcHeader :=
  { bw := bits h 39 32, bh := bits h 47 40, bd := bits h 50 48, numLods := bits h 55 51 + 1
    width := bits h 79 56, height := bits h 103 80, depth := bits h 127 104, offset := none }

/-- `ASTC.HEADER.PARSE` (R1152): the fields, and the file offset of block `k` of a LOD (R1089); the formula also of a LOD
or a block that the file does not hold (log entry 30). -/
def astcHeaderParse (h : BitVec 128) (lod k : Nat) : AstcHeader :=
  let x := astcFields h
  { x with offset := if astcDims x.bw x.bh x.bd
      then some (16 + 16 * (((List.range lod).map (astcBlocks x)).sum + k)) else none }

/-- ASTC.HEADER.PARSE (R1152). The width of `k` is the model's (log entry 12). -/
def execAstcHeader (h : BitVec 128) (lod : BitVec 5) (k : BitVec 32) (s : State) : Host.Outcome State Fault Refusal :=
  answer s (.astcHeader (astcHeaderParse h lod.toNat k.toNat))

/-! ### Memory layout of ASTC files -/

/-- Rows, row bytes and slabs of the blocks of a LOD (R1091). -/
def astcBlockRows (hL bh : Nat) : Nat := (ceilDiv hL bh + 3) / 4 * 4
def astcBlockRowBytes (wL bw : Nat) : Nat := ceilDiv wL bw * 16
def astcBlockSlabs (dL bd : Nat) : Nat := ceilDiv dL bd

/-- `(U_offset, V_offset)` of a LOD and a depth slab (R1090), printed for LOD 0 to 3 only: `w`, `h` and `d` give the
row bytes, rows and slabs of a LOD. -/
def astcLodOffset (w h d : Nat → Nat) (lod q : Nat) : Option (Nat × Nat) :=
  match lod with
  | 0 => some (0, q * h 0)
  | 1 => some (q % 2 * w 1, d 0 * h 0 + q / 2 * h 1)
  | 2 => some (q % 4 * w 2, d 0 * h 0 + ceilDiv (d 1) 2 * h 1 + q / 4 * h 2)
  | 3 => some (q % 8 * w 3, d 0 * h 0 + ceilDiv (d 1) 2 * h 1 + ceilDiv (d 2) 2 * h 2 + q / 8 * h 3)
  | _ => none

end Sys2Proof.Machine
end

