-- ==== Sys2Proof/Machine/Tiling.lean ====
section
/-! DEFINITION. Address tiling (spec/40_tiling.md R417 to R445): pure functions from a position in a surface to a
graphics address or to an offset inside a tile. -/
namespace Sys2Proof.Machine

/-! ### The legacy algorithm -/

/-- Height and width in bytes of a tile (R417). -/
def tileHeight : TileWalk → Nat
  | .x => 8
  | .y => 32
  | .w => 64

/-- Width in bytes of a tile (R417). -/
def tileWidth : TileWalk → Nat
  | .x => 512
  | .y => 128
  | .w => 64

/-- The offset inside a tile of the byte at column `x`, row `y` of the tile (R420, R421, R422). -/
def offsetInTile (k : TileWalk) (x y : Nat) : Nat :=
  match k with
  | .x => 512 * y + x
  | .y => 32 * 16 * (x / 16) + y * 16 + x % 16
  | .w => 64 * 8 * (x / 8) + 64 * (y / 8) + 32 * (y / 4 % 2) + 16 * (x / 4 % 2) + 8 * (y / 2 % 2)
            + 4 * (x / 2 % 2) + 2 * (y % 2) + x % 2

/-- `TiledOffset` (R418 to R422): the tile's number in a region of `pitch` tiles, and the offset inside it. -/
def tiledOffset (k : TileWalk) (pitch x y : Nat) : Nat :=
  pitch * 4096 * (y / tileHeight k) + 4096 * (x / tileWidth k)
    + offsetInTile k (x % tileWidth k) (y % tileHeight k)

/-- `TILE.FENCE` (R423): the graphics address of the byte at an offset of the aperture inside a fence. -/
def fencedAddress (k : TileWalk) (base pitch linear : Nat) : Nat :=
  let a := linear - base
  let n := a / tileWidth k
  base + tiledOffset k pitch (n % pitch * tileWidth k + a % tileWidth k) (n / pitch)

/-- An address of a surface: an element at an offset of 2^38 or more is outside the model (R1200, R418, U35). -/
def answerOffset (s : State) (base off : Nat) : Host.Outcome State Fault Refusal :=
  if off < 2 ^ 38 then answer s (.address (base + off)) else .refused .offsetTooLarge

/-- A tiled surface's base address must be 4 KB aligned (R402, U1). -/
def execTile (k : TileWalk) (base : BitVec 64) (pitch x y : BitVec 32) (s : State) :
    Host.Outcome State Fault Refusal :=
  if base.toNat % 4096 ≠ 0 then .refused .surfaceMisaligned
  else answerOffset s base.toNat (tiledOffset k pitch.toNat x.toNat y.toNat)

/-- TILE.LINEAR (R419). -/
def execTileLinear (base : BitVec 64) (pitch x y : BitVec 32) (s : State) : Host.Outcome State Fault Refusal :=
  answerOffset s base.toNat (y.toNat * pitch.toNat + x.toNat)

/-- TILE.X (R420). -/
def execTileX (base : BitVec 64) (pitch x y : BitVec 32) (s : State) : Host.Outcome State Fault Refusal :=
  execTile .x base pitch x y s

/-- TILE.Y (R421). -/
def execTileY (base : BitVec 64) (pitch x y : BitVec 32) (s : State) : Host.Outcome State Fault Refusal :=
  execTile .y base pitch x y s

/-- TILE.W (R422). -/
def execTileW (base : BitVec 64) (pitch x y : BitVec 32) (s : State) : Host.Outcome State Fault Refusal :=
  execTile .w base pitch x y s

/-- TILE.FENCE (R423). The access is selected by falling inside the fence, so not below its base (R448), and a fence has a
pitch; nothing is stated of other operands (log entry 33). R423 states no alignment of the fence base, and R402 one of tiled
surfaces: the formula is computed for every fence base (DESIGN CHOICE, log entry 30). -/
def execTileFence (linear base : BitVec 64) (pitch : BitVec 32) (walk : TileWalk) (s : State) :
    Host.Outcome State Fault Refusal :=
  if base.toNat ≤ linear.toNat ∧ pitch ≠ 0 then answer s (.address (fencedAddress walk base.toNat pitch.toNat linear.toNat))
  else freeAddress s

/-! ### TileYS and TileYF -/

/-- One bit of the result of a tile function: a bit of `x`, of `y` or of the sample number (R426). -/
inductive TileBit where
  | x (n : Nat) | y (n : Nat) | s (n : Nat)
  deriving DecidableEq, Repr

/-- The value of a bit. -/
def TileBit.val (b : TileBit) (x y s : Nat) : Nat :=
  match b with
  | .x n => nbit x n
  | .y n => nbit y n
  | .s n => nbit s n

/-- The number whose bits, most significant first, are these (R426). -/
def swizzle (bs : List TileBit) (x y s : Nat) : Nat := bs.foldl (fun acc b => 2 * acc + b.val x y s) 0

/-- The low 12 bits of a Tile-Y offset (R421, R1232). -/
def tileYBits : List TileBit :=
  [.x 6, .x 5, .x 4, .y 4, .y 3, .y 2, .y 1, .y 0, .x 3, .x 2, .x 1, .x 0]

/-- The low 12 bits of a Tile-X offset (R420, R1232). -/
def tileXBits : List TileBit :=
  [.y 2, .y 1, .y 0, .x 8, .x 7, .x 6, .x 5, .x 4, .x 3, .x 2, .x 1, .x 0]

/-- The low 12 bits of a Tile-W offset (R422, R1232). -/
def tileWBits : List TileBit :=
  [.x 5, .x 4, .x 3, .y 5, .y 4, .y 3, .y 2, .x 2, .y 1, .x 1, .y 0, .x 0]

/-- The bit permutation of R427. -/
def ys64Bits : List TileBit :=
  [.x 9, .y 5, .x 8, .y 4, .x 7, .y 3, .x 6, .y 2, .x 5, .x 4, .y 1, .y 0, .x 3, .x 2, .x 1, .x 0]

/-- The bit permutation of R428. -/
def ys16Bits : List TileBit :=
  [.x 8, .y 6, .x 7, .y 5, .x 6, .y 4, .x 5, .y 3, .x 4, .y 2, .y 1, .y 0, .x 3, .x 2, .x 1, .x 0]

/-- The bit permutation of R429. -/
def ys8Bits : List TileBit :=
  [.x 7, .y 7, .x 6, .y 6, .x 5, .y 5, .x 4, .y 4, .y 3, .y 2, .y 1, .y 0, .x 3, .x 2, .x 1, .x 0]

/-- The bit permutation of R430. -/
def ysMsaa2_64Bits : List TileBit :=
  [.s 0, .y 5, .x 8, .y 4, .x 7, .y 3, .x 6, .y 2, .x 5, .x 4, .y 1, .y 0, .x 3, .x 2, .x 1, .x 0]

/-- The bit permutation of R431. -/
def ysMsaa2_16Bits : List TileBit :=
  [.s 0, .y 6, .x 7, .y 5, .x 6, .y 4, .x 5, .y 3, .x 4, .y 2, .y 1, .y 0, .x 3, .x 2, .x 1, .x 0]

/-- The bit permutation of R432. -/
def ysMsaa2_8Bits : List TileBit :=
  [.s 0, .y 7, .x 6, .y 6, .x 5, .y 5, .x 4, .y 4, .y 3, .y 2, .y 1, .y 0, .x 3, .x 2, .x 1, .x 0]

/-- The bit permutation of R433. -/
def ysMsaa4_64Bits : List TileBit :=
  [.s 1, .s 0, .x 8, .y 4, .x 7, .y 3, .x 6, .y 2, .x 5, .x 4, .y 1, .y 0, .x 3, .x 2, .x 1, .x 0]

/-- The bit permutation of R434. -/
def ysMsaa4_16Bits : List TileBit :=
  [.s 1, .s 0, .x 7, .y 5, .x 6, .y 4, .x 5, .y 3, .x 4, .y 2, .y 1, .y 0, .x 3, .x 2, .x 1, .x 0]

/-- The bit permutation of R435. -/
def ysMsaa4_8Bits : List TileBit :=
  [.s 1, .s 0, .x 6, .y 6, .x 5, .y 5, .x 4, .y 4, .y 3, .y 2, .y 1, .y 0, .x 3, .x 2, .x 1, .x 0]

/-- The bit permutation of R436. -/
def ysMsaa8_64Bits : List TileBit :=
  [.s 2, .s 1, .s 0, .y 4, .x 7, .y 3, .x 6, .y 2, .x 5, .x 4, .y 1, .y 0, .x 3, .x 2, .x 1, .x 0]

/-- The bit permutation of R437. -/
def ysMsaa8_16Bits : List TileBit :=
  [.s 2, .s 1, .s 0, .y 5, .x 6, .y 4, .x 5, .y 3, .x 4, .y 2, .y 1, .y 0, .x 3, .x 2, .x 1, .x 0]

/-- The bit permutation of R438. -/
def ysMsaa8_8Bits : List TileBit :=
  [.s 2, .s 1, .s 0, .y 6, .x 5, .y 5, .x 4, .y 4, .y 3, .y 2, .y 1, .y 0, .x 3, .x 2, .x 1, .x 0]

/-- The bit permutation of R439. -/
def ysMsaa16_64Bits : List TileBit :=
  [.s 3, .s 2, .s 1, .s 0, .x 7, .y 3, .x 6, .y 2, .x 5, .x 4, .y 1, .y 0, .x 3, .x 2, .x 1, .x 0]

/-- The bit permutation of R440. -/
def ysMsaa16_16Bits : List TileBit :=
  [.s 3, .s 2, .s 1, .s 0, .x 6, .y 4, .x 5, .y 3, .x 4, .y 2, .y 1, .y 0, .x 3, .x 2, .x 1, .x 0]

/-- The bit permutation of R441. -/
def ysMsaa16_8Bits : List TileBit :=
  [.s 3, .s 2, .s 1, .s 0, .x 5, .y 5, .x 4, .y 4, .y 3, .y 2, .y 1, .y 0, .x 3, .x 2, .x 1, .x 0]

/-- The bit permutation of R442. -/
def yf64Bits : List TileBit :=
  [.x 7, .y 3, .x 6, .y 2, .x 5, .x 4, .y 1, .y 0, .x 3, .x 2, .x 1, .x 0]

/-- The bit permutation of R443. -/
def yf16Bits : List TileBit :=
  [.x 6, .y 4, .x 5, .y 3, .x 4, .y 2, .y 1, .y 0, .x 3, .x 2, .x 1, .x 0]

/-- The bit permutation of R444. -/
def yf8Bits : List TileBit :=
  [.x 5, .y 5, .x 4, .y 4, .y 3, .y 2, .y 1, .y 0, .x 3, .x 2, .x 1, .x 0]

/-- TILE.YS.64_128 (R427). -/
def execTileYs64 (x y : BitVec 16) (s : State) : Host.Outcome State Fault Refusal :=
  answer s (.offset (BitVec.ofNat 16 (swizzle ys64Bits x.toNat y.toNat 0)))

/-- TILE.YS.16_32 (R428). -/
def execTileYs16 (x y : BitVec 16) (s : State) : Host.Outcome State Fault Refusal :=
  answer s (.offset (BitVec.ofNat 16 (swizzle ys16Bits x.toNat y.toNat 0)))

/-- TILE.YS.8 (R429). -/
def execTileYs8 (x y : BitVec 16) (s : State) : Host.Outcome State Fault Refusal :=
  answer s (.offset (BitVec.ofNat 16 (swizzle ys8Bits x.toNat y.toNat 0)))

/-- TILE.YS.MSAA2.64_128 (R430). -/
def execTileYsMsaa2_64 (x y sample : BitVec 16) (s : State) : Host.Outcome State Fault Refusal :=
  answer s (.offset (BitVec.ofNat 16 (swizzle ysMsaa2_64Bits x.toNat y.toNat sample.toNat)))

/-- TILE.YS.MSAA2.16_32 (R431). -/
def execTileYsMsaa2_16 (x y sample : BitVec 16) (s : State) : Host.Outcome State Fault Refusal :=
  answer s (.offset (BitVec.ofNat 16 (swizzle ysMsaa2_16Bits x.toNat y.toNat sample.toNat)))

/-- TILE.YS.MSAA2.8 (R432). -/
def execTileYsMsaa2_8 (x y sample : BitVec 16) (s : State) : Host.Outcome State Fault Refusal :=
  answer s (.offset (BitVec.ofNat 16 (swizzle ysMsaa2_8Bits x.toNat y.toNat sample.toNat)))

/-- TILE.YS.MSAA4.64_128 (R433). -/
def execTileYsMsaa4_64 (x y sample : BitVec 16) (s : State) : Host.Outcome State Fault Refusal :=
  answer s (.offset (BitVec.ofNat 16 (swizzle ysMsaa4_64Bits x.toNat y.toNat sample.toNat)))

/-- TILE.YS.MSAA4.16_32 (R434). -/
def execTileYsMsaa4_16 (x y sample : BitVec 16) (s : State) : Host.Outcome State Fault Refusal :=
  answer s (.offset (BitVec.ofNat 16 (swizzle ysMsaa4_16Bits x.toNat y.toNat sample.toNat)))

/-- TILE.YS.MSAA4.8 (R435). -/
def execTileYsMsaa4_8 (x y sample : BitVec 16) (s : State) : Host.Outcome State Fault Refusal :=
  answer s (.offset (BitVec.ofNat 16 (swizzle ysMsaa4_8Bits x.toNat y.toNat sample.toNat)))

/-- TILE.YS.MSAA8.64_128 (R436). -/
def execTileYsMsaa8_64 (x y sample : BitVec 16) (s : State) : Host.Outcome State Fault Refusal :=
  answer s (.offset (BitVec.ofNat 16 (swizzle ysMsaa8_64Bits x.toNat y.toNat sample.toNat)))

/-- TILE.YS.MSAA8.16_32 (R437). -/
def execTileYsMsaa8_16 (x y sample : BitVec 16) (s : State) : Host.Outcome State Fault Refusal :=
  answer s (.offset (BitVec.ofNat 16 (swizzle ysMsaa8_16Bits x.toNat y.toNat sample.toNat)))

/-- TILE.YS.MSAA8.8 (R438). -/
def execTileYsMsaa8_8 (x y sample : BitVec 16) (s : State) : Host.Outcome State Fault Refusal :=
  answer s (.offset (BitVec.ofNat 16 (swizzle ysMsaa8_8Bits x.toNat y.toNat sample.toNat)))

/-- TILE.YS.MSAA16.64_128 (R439). -/
def execTileYsMsaa16_64 (x y sample : BitVec 16) (s : State) : Host.Outcome State Fault Refusal :=
  answer s (.offset (BitVec.ofNat 16 (swizzle ysMsaa16_64Bits x.toNat y.toNat sample.toNat)))

/-- TILE.YS.MSAA16.16_32 (R440). -/
def execTileYsMsaa16_16 (x y sample : BitVec 16) (s : State) : Host.Outcome State Fault Refusal :=
  answer s (.offset (BitVec.ofNat 16 (swizzle ysMsaa16_16Bits x.toNat y.toNat sample.toNat)))

/-- TILE.YS.MSAA16.8 (R441). -/
def execTileYsMsaa16_8 (x y sample : BitVec 16) (s : State) : Host.Outcome State Fault Refusal :=
  answer s (.offset (BitVec.ofNat 16 (swizzle ysMsaa16_8Bits x.toNat y.toNat sample.toNat)))

/-- TILE.YF.64_128 (R442). -/
def execTileYf64 (x y : BitVec 16) (s : State) : Host.Outcome State Fault Refusal :=
  answer s (.offset (BitVec.ofNat 16 (swizzle yf64Bits x.toNat y.toNat 0)))

/-- TILE.YF.16_32 (R443). -/
def execTileYf16 (x y : BitVec 16) (s : State) : Host.Outcome State Fault Refusal :=
  answer s (.offset (BitVec.ofNat 16 (swizzle yf16Bits x.toNat y.toNat 0)))

/-- TILE.YF.8 (R444). -/
def execTileYf8 (x y : BitVec 16) (s : State) : Host.Outcome State Fault Refusal :=
  answer s (.offset (BitVec.ofNat 16 (swizzle yf8Bits x.toNat y.toNat 0)))

/-! ### Auxiliary surfaces -/

/-- The response to a sample of a surface with an auxiliary surface (R413 to R416); a mapped main tile with an
unmapped auxiliary tile is "Undefined" (U2). -/
def auxResponse (mainMapped auxMapped : Bool) : Option Bool :=
  if !mainMapped then some true else if auxMapped then some false else none

end Sys2Proof.Machine
end

