-- ==== Sys2Proof/Machine/Layout.lean ====
section
/-! DEFINITION. Surface layout: from a surface description and a position to a graphics address (spec/49_surface_layout.md
R1200 to R1289). -/
namespace Sys2Proof.Machine

/-! ### Elements and sizes -/

/-- `log2(Bpp)` (R1206). -/
def bpeLog : Bpe → Nat
  | .b8 => 0
  | .b16 => 1
  | .b32 => 2
  | .b64 => 3
  | .b128 => 4

/-- The column of a mip-tail or alignment table: 128, 64, 32, 16, 8 bits per element. -/
def bpeColumn (b : Bpe) : Nat := 4 - bpeLog b

/-- `log2(n)` of a number of multisamples. -/
def samplesLog : Samples → Nat
  | .s1 => 0
  | .s2 => 1
  | .s4 => 2
  | .s8 => 3
  | .s16 => 4

/-- The number of multisamples. -/
def sampleCount (n : Samples) : Nat := 2 ^ samplesLog n

/-! ### Buffers -/

/-- BUF.TYPED (R1203): the pitch is at most 2048; nothing is stated of a larger one (log entry 33). -/
def execBufTyped (base : BitVec 64) (pitch v u : BitVec 32) (s : State) : Host.Outcome State Fault Refusal :=
  if pitch.toNat ≤ 2048 then answerOffset s base.toNat (v.toNat * pitch.toNat + u.toNat) else freeAddress s

/-- BUF.RAW (R1204). -/
def execBufRaw (base u : BitVec 64) (s : State) : Host.Outcome State Fault Refusal :=
  answerOffset s base.toNat u.toNat

/-- BUF.STRUCTURED (R1205): `v` "must be a multiple of 4" (U38), and lies inside the structure; nothing is stated of one
that does not (log entry 33). -/
def execBufStructured (base : BitVec 64) (pitch u v : BitVec 32) (s : State) : Host.Outcome State Fault Refusal :=
  if v.toNat % 4 ≠ 0 then .refused .structuredOffset
  else if v.toNat < pitch.toNat then answerOffset s base.toNat (u.toNat * pitch.toNat + v.toNat)
  else freeAddress s

/-! ### LOD sizes -/

/-- `W_L`, `H_L` (R1222): half the previous LOD, at least 1. -/
def lodExtent (n l : Nat) : Nat := max 1 (n >>> l)

/-- `i * ceil(W / i)` (R1224, D46). -/
def alignTo (i w : Nat) : Nat := i * ceilDiv w i

/-- An aligned size in elements: divided by the block size (R1224); a block size that does not divide it is not
described. -/
def inElements (p w : Nat) : Nat := if w % p = 0 then w / p else Config.raggedElements w p

/-! ### 1D surfaces -/

/-- The alignment `i` in pixels (R1216). -/
def align1D (tr : TrMode) (b : Bpe) : Nat :=
  match tr with
  | .ys => 65536 >>> bpeLog b
  | .yf => 4096 >>> bpeLog b
  | .none => 64

/-- The mip-tail offsets in pixels, by slot and column (R1215). -/
def mipTail1D : List (List Nat) :=
  [[2048, 4096, 8192, 16384, 32768],
   [1024, 2048, 4096, 8192, 16384],
   [512, 1024, 2048, 4096, 8192],
   [256, 512, 1024, 2048, 4096],
   [128, 256, 512, 1024, 2048],
   [64, 128, 256, 512, 1024],
   [48, 96, 192, 384, 768],
   [32, 64, 128, 256, 512],
   [28, 56, 112, 224, 448],
   [24, 48, 96, 192, 384],
   [20, 40, 80, 160, 320],
   [16, 32, 64, 128, 256],
   [12, 24, 48, 96, 192],
   [8, 16, 32, 64, 128],
   [4, 8, 16, 32, 64],
   [0, 0, 0, 0, 0]]

/-- `MT(L)` (R1215). -/
def tailOffset1D (tr : TrMode) (b : Bpe) (slot : Nat) : Nat :=
  (mipTail1D.getD (match tr with | .yf => slot + 4 | .ys => slot | .none => slot) []).getD (bpeColumn b) 0

/-- `LODU_L` without a mip tail (R1211). -/
def lodOffset1D (i width l : Nat) : Nat := ((List.range l).map (fun k => alignTo i (lodExtent width k))).sum

/-- `LODU_L` (R1211, R1215). -/
def lodU1D (a : Surf1D) : Nat :=
  let i := align1D a.tr a.bpe
  if a.tr = .none ∨ a.lod.toNat < a.tail.toNat then lodOffset1D i a.width.toNat a.lod.toNat
  else lodOffset1D i a.width.toNat a.tail.toNat + tailOffset1D a.tr a.bpe (a.lod.toNat - a.tail.toNat)

/-- The offset of `SURF.1D` (R1214). -/
def surf1DOffset (a : Surf1D) : Nat := (a.r.toNat * a.qpitch.toNat + lodU1D a + a.u.toNat) <<< bpeLog a.bpe

/-- The alignment of a 1D base address (R402), with the exception for one MIP inside the tail of another surface. -/
def baseAligned1D (a : Surf1D) : Bool :=
  if a.inTail && decide (3 ≤ bpeLog a.bpe) then true
  else match a.tr with
    | .none => true
    | .yf => a.base.toNat % 4096 == 0
    | .ys => a.base.toNat % 65536 == 0

/-- The operands of SURF.1D for which the spec states an offset: a LOD up to MIPCOUNT (R1211; as R1225), in the tail
one of the rows of the table (R1215). -/
def stated1D (a : Surf1D) : Bool :=
  let d := a.lod.toNat - a.tail.toNat
  decide (a.lod.toNat ≤ a.mips.toNat) && match a.tr with
    | .none => true
    | .yf => decide (d ≤ 11)
    | .ys => true

/-- SURF.1D (R1214). -/
def execSurf1D (a : Surf1D) (s : State) : Host.Outcome State Fault Refusal :=
  if !baseAligned1D a then .refused .surfaceMisaligned
  else if stated1D a then answerOffset s a.base.toNat (surf1DOffset a)
  else freeAddress s

/-! ### 2D surfaces: LODs -/

/-- The interleaved multisample adjustment (R1223). -/
def adjustInterleaved (n : Samples) (w h : Nat) : Nat × Nat :=
  match n with
  | .s1 => (w, h)
  | .s2 => (ceilDiv w 2 * 4, h)
  | .s4 => (ceilDiv w 2 * 4, ceilDiv h 2 * 4)
  | .s8 => (ceilDiv w 2 * 8, ceilDiv h 2 * 4)
  | .s16 => (ceilDiv w 2 * 8, ceilDiv h 2 * 8)

/-- Multisampled with the samples on slices (CMS, UMS; R1262). -/
def sliced (a : Surf2D) : Bool := a.samples != .s1 && !a.interleaved

/-- `log2` of the alignment `(i, j)` of TileYS and TileYF (R1240), divided for sliced TileYS surfaces. -/
def align2DLog (a : Surf2D) : Nat × Nat :=
  let wide := match a.bpe with | .b8 => (8, 8) | .b16 => (8, 7) | .b32 => (7, 7) | .b64 => (7, 6) | .b128 => (6, 6)
  match a.tr with
  | .none => (0, 0)
  | .yf => (wide.1 - 2, wide.2 - 2)
  | .ys => if sliced a then (wide.1 - (samplesLog a.samples + 1) / 2, wide.2 - samplesLog a.samples / 2) else wide

/-- The alignment unit in texels: the fields `i`, `j` (R1285), or the fixed tables for TileYS and TileYF (R1240). -/
def align2D (a : Surf2D) : Nat × Nat :=
  match a.tr with
  | .none => (a.i.toNat, a.j.toNat)
  | .yf => (2 ^ (align2DLog a).1, 2 ^ (align2DLog a).2)
  | .ys => (2 ^ (align2DLog a).1, 2 ^ (align2DLog a).2)

/-- The aligned size of LOD `l`, in elements (R1222 to R1224). With TRMODE NONE and `j` below 4 the minimum height of 4
rows of R1221, which it calls the effect of `j >= 4`, is not added (DESIGN CHOICE, log entry 32). -/
def lodElements (a : Surf2D) (align : Nat × Nat) (l : Nat) : Nat × Nat :=
  let w := lodExtent a.width.toNat l
  let h := lodExtent a.height.toNat l
  let d := if a.interleaved then adjustInterleaved a.samples w h else (w, h)
  (inElements a.p.toNat (alignTo align.1 d.1), inElements a.q.toNat (alignTo align.2 d.2))

/-- `LOD_L` (R1225), from the sizes of the LODs. -/
def lodOffset2D (size : Nat → Nat × Nat) (l : Nat) : Nat × Nat :=
  match l with
  | 0 => (0, 0)
  | 1 => (0, (size 0).2)
  | l => ((size 1).1, (size 0).2 + ((List.range (l - 2)).map (fun k => (size (k + 2)).2)).sum)

/-- The mip-tail offsets `(MU, MV)` in texels, by slot and column (R1237). -/
def mipTail2D : List (List (Nat × Nat)) :=
  [[(32, 0), (64, 0), (64, 0), (128, 0), (128, 0)],
   [(0, 32), (0, 32), (0, 64), (0, 64), (0, 128)],
   [(16, 0), (32, 0), (32, 0), (64, 0), (64, 0)],
   [(0, 16), (0, 16), (0, 32), (0, 32), (0, 64)],
   [(8, 0), (16, 0), (16, 0), (32, 0), (32, 0)],
   [(4, 8), (8, 8), (8, 16), (16, 16), (16, 32)],
   [(0, 12), (0, 12), (0, 24), (0, 24), (0, 48)],
   [(0, 8), (0, 8), (0, 16), (0, 16), (0, 32)],
   [(4, 4), (8, 4), (8, 8), (16, 8), (16, 16)],
   [(4, 0), (8, 0), (8, 0), (16, 0), (16, 0)],
   [(0, 4), (0, 4), (0, 8), (0, 8), (0, 16)],
   [(3, 0), (6, 0), (4, 4), (8, 4), (0, 12)],
   [(2, 0), (4, 0), (4, 0), (8, 0), (0, 8)],
   [(1, 0), (2, 0), (0, 4), (0, 4), (0, 4)],
   [(0, 0), (0, 0), (0, 0), (0, 0), (0, 0)]]

/-- The slot of a LOD in the mip tail (R1237). -/
def tailSlot2D (a : Surf2D) : Nat :=
  let d := a.lod.toNat - a.tail.toNat
  match a.tr with
  | .ys => d + samplesLog a.samples
  | .yf => d + 4
  | .none => d

/-- Whether a LOD lies in the mip tail (R1236). -/
def inMipTail (a : Surf2D) : Bool := a.tr != .none && decide (a.tail.toNat ≤ a.lod.toNat)

/-- The offset of the LOD, mip tail included, in elements and rows (R1225, R1236 to R1238). -/
def lodUV2D (a : Surf2D) : Nat × Nat :=
  let size := lodElements a (align2D a)
  if inMipTail a then
    let o := lodOffset2D size a.tail.toNat
    let m := (mipTail2D.getD (tailSlot2D a) []).getD (bpeColumn a.bpe) (0, 0)
    (o.1 + m.1, o.2 + m.2)
  else lodOffset2D size a.lod.toNat

/-! ### 2D surfaces: addresses -/

/-- A tile of `2^cu` bytes by `2^cv` rows, and the order of the bits inside it (R1232, R1262). Linear has no tile. -/
structure TileShape where
  cu : Nat
  cv : Nat
  bits : List TileBit
  deriving DecidableEq, Repr

/-- The row of R1232 for a tile mode without tiled resources. -/
def legacyShape : TileMode → TileShape
  | .linear => { cu := 0, cv := 0, bits := [] }
  | .tileX => { cu := 9, cv := 3, bits := tileXBits }
  | .tileY => { cu := 7, cv := 5, bits := tileYBits }
  | .tileW => { cu := 6, cv := 6, bits := tileWBits }

/-- The rows of R1232 and R1262 for TileYS. -/
def ysShape (n : Samples) (b : Bpe) : TileShape :=
  match n with
  | .s1 => match b with
    | .b8 => ⟨8, 8, ys8Bits⟩
    | .b16 | .b32 => ⟨9, 7, ys16Bits⟩
    | .b64 | .b128 => ⟨10, 6, ys64Bits⟩
  | .s2 => match b with
    | .b8 => ⟨7, 8, ysMsaa2_8Bits⟩
    | .b16 | .b32 => ⟨8, 7, ysMsaa2_16Bits⟩
    | .b64 | .b128 => ⟨9, 6, ysMsaa2_64Bits⟩
  | .s4 => match b with
    | .b8 => ⟨7, 7, ysMsaa4_8Bits⟩
    | .b16 | .b32 => ⟨8, 6, ysMsaa4_16Bits⟩
    | .b64 | .b128 => ⟨9, 5, ysMsaa4_64Bits⟩
  | .s8 => match b with
    | .b8 => ⟨6, 7, ysMsaa8_8Bits⟩
    | .b16 | .b32 => ⟨7, 6, ysMsaa8_16Bits⟩
    | .b64 | .b128 => ⟨8, 5, ysMsaa8_64Bits⟩
  | .s16 => match b with
    | .b8 => ⟨6, 6, ysMsaa16_8Bits⟩
    | .b16 | .b32 => ⟨7, 5, ysMsaa16_16Bits⟩
    | .b64 | .b128 => ⟨8, 4, ysMsaa16_64Bits⟩

/-- The rows of R1232 for TileYF. -/
def yfShape : Bpe → TileShape
  | .b8 => ⟨6, 6, yf8Bits⟩
  | .b16 | .b32 => ⟨7, 5, yf16Bits⟩
  | .b64 | .b128 => ⟨8, 4, yf64Bits⟩

/-- The tile of a surface. -/
def tileShape (a : Surf2D) : TileShape :=
  match a.tr with
  | .none => legacyShape a.tile
  | .yf => yfShape a.bpe
  | .ys => ysShape (if sliced a then a.samples else .s1) a.bpe

/-- `TileID << … | swizzled low bits` (R1232, R1233): `u` in bytes, `v` in rows. -/
def shapedOffset (t : TileShape) (pitch u v ss : Nat) : Nat :=
  let id := (v >>> t.cv) * (pitch >>> t.cu) + (u >>> t.cu)
  id <<< t.bits.length + swizzle t.bits (u % 2 ^ t.cu) (v % 2 ^ t.cv) ss

/-- The array index, with the sample slice in its low bits for sliced surfaces that are not tiled resources (R1262). -/
def arrayIndex (a : Surf2D) : Nat :=
  if sliced a && a.tr == .none then a.r.toNat <<< samplesLog a.samples ||| a.ss.toNat else a.r.toNat

/-- The element's position: that of its sample in an interleaved surface (R1251). -/
def elementUV (a : Surf2D) : Nat × Nat :=
  if a.interleaved && a.samples != .s1 then
    Config.imsSamplePosition (sampleCount a.samples) a.u.toNat a.v.toNat a.ss.toNat
  else (a.u.toNat, a.v.toNat)

/-- `u` in bytes and `v` in rows (R1226, R1238), with the X and Y offsets (R1220, D47). In a compressed format the other
terms are elements and rows of elements (R1226), while R1220 has the offsets in pixels and rows: they are added
unconverted, as elements and rows of elements (DESIGN CHOICE, log entry 32). -/
def bytesUV2D (a : Surf2D) : Nat × Nat :=
  let lod := lodUV2D a
  let e := elementUV a
  ((e.1 + lod.1 + a.xoff.toNat) <<< bpeLog a.bpe, arrayIndex a * a.qpitch.toNat + lod.2 + e.2 + a.yoff.toNat)

/-- The offset of `SURF.2D` (R1234): in a linear surface `v * Pitch + u`. -/
def surf2DOffset (a : Surf2D) : Nat :=
  let uv := bytesUV2D a
  if a.tr == .yf && sliced a then
    Config.tileYfMsaaOffset (sampleCount a.samples) (bpeLog a.bpe) a.pitch.toNat uv.1 uv.2 a.ss.toNat
  else shapedOffset (tileShape a) a.pitch.toNat uv.1 uv.2 a.ss.toNat

/-- The alignment of a base address (R402), with the exception for one MIP inside the tail of another surface. -/
def baseAligned2D (a : Surf2D) : Bool :=
  if a.inTail && decide (3 ≤ bpeLog a.bpe) then true
  else match a.tr with
    | .ys => a.base.toNat % 65536 == 0
    | .yf => a.base.toNat % 4096 == 0
    | .none => a.tile == .linear || a.base.toNat % 4096 == 0

/-- Blocks and alignment units are not empty (R1206, R1285); TileYS and TileYF ignore the fields `i` and `j` (R1240,
R1278). -/
def unitsStated (a : Surf2D) : Bool := a.p != 0 && a.q != 0 && (a.tr != .none || (a.i != 0 && a.j != 0))

/-- A tiled resource has Tile_Mode YMAJOR (R407). -/
def modeStated (a : Surf2D) : Bool := a.tr == .none || a.tile == .tileY

/-- The operands for which the spec states the shape of a surface with tiles of `2^cu` bytes width: units, tile mode, a pitch
of whole tiles (R406), a LOD up to MIPCOUNT, the last whose offset R1225 gives. R456 limits a tiled pitch to 256 KB (128 KB
with GTT remapping) and to no less than the surface's width, and states no effect beyond: there the formula is computed
(DESIGN CHOICE, log entry 30). -/
def shapeStated (a : Surf2D) (cu : Nat) : Bool :=
  unitsStated a && modeStated a && a.pitch.toNat % 2 ^ cu == 0 && decide (a.lod.toNat ≤ a.mips.toNat)

/-- The operands of SURF.2D for which the spec states an offset: the sample is one of the surface (R1262), a LOD in the tail
one of the rows of the table (R1237). -/
def stated2D (a : Surf2D) : Bool :=
  shapeStated a (tileShape a).cu && decide (a.ss.toNat < sampleCount a.samples)
    && (!inMipTail a || decide (tailSlot2D a ≤ 14))

/-- SURF.2D (R1234). -/
def execSurf2D (a : Surf2D) (s : State) : Host.Outcome State Fault Refusal :=
  if !baseAligned2D a then .refused .surfaceMisaligned
  else if stated2D a then answerOffset s a.base.toNat (surf2DOffset a)
  else freeAddress s

/-! ### Multisample control, quilts and cubes -/

/-- The bits of an MCS element (R1252, R1254). -/
def mcsElementBits : Samples → Nat
  | .s1 => 0
  | .s2 => 8
  | .s4 => 8
  | .s8 => 32
  | .s16 => 64

/-- Field `k` of an MCS element (R1254). -/
def mcsField (n : Samples) (m k : Nat) : Nat := (m >>> (samplesLog n * k)) % 2 ^ samplesLog n

/-- `MCS.DECODE` (R1258); `none` for a sample whose slice the spec does not state (U39). -/
def mcsDecode (n : Samples) (m k : Nat) : Option McsResult :=
  let ones := 2 ^ samplesLog n - 1
  if (List.range (sampleCount n)).all (fun j => mcsField n m j == ones) then some .clear
  else if mcsField n m 0 = 0 then some (.slice (mcsField n m k))
  else if mcsField n m k = ones then some .clear
  else if mcsField n m k = 0 then none
  else some (.slice (mcsField n m k - 1))

/-- The operands of MCS.DECODE for which the spec states an answer: a multisampled surface, and one of its samples. -/
def statedMcs (samples : Samples) (k : BitVec 4) : Bool := samples != .s1 && decide (k.toNat < sampleCount samples)

/-- MCS.DECODE (R1258), of an element of the size that the number of samples gives (R1252). A slice that is not stated is
any slice of the surface (log entry 33). -/
def execMcsDecode (samples : Samples) (m : BitVec 64) (k : BitVec 4) (s : State) : Host.Outcome State Fault Refusal :=
  match (if statedMcs samples k then mcsDecode samples (m.toNat % 2 ^ mcsElementBits samples) k.toNat else none) with
  | some r => answer s (.mcs r)
  | none =>
    answer { s with freeCount := s.freeCount + 1 }
      (.mcs (.slice ((Config.freeByte s.freeCount).toNat % if statedMcs samples k then sampleCount samples else 256)))

/-- SURF.QUILT (R1266). The rule's limits have no stated effect: at coordinates at or beyond the quilt's width and height, in
a quilt of more than 32 x 32 slices, and in an array of more than 2048 / (width * height) slices the formula is computed
(DESIGN CHOICE, log entry 30). -/
def execSurfQuilt (width height qx qy r : BitVec 32) (s : State) : Host.Outcome State Fault Refusal :=
  answer s (.slice (r.toNat * width.toNat * height.toNat + qy.toNat * width.toNat + qx.toNat))

/-- SURF.CUBE (R1268). A cube has six faces; nothing is stated of another number (log entry 33). -/
def execSurfCube (ai : BitVec 32) (f : BitVec 3) (s : State) : Host.Outcome State Fault Refusal :=
  if f.toNat < 6 then answer s (.slice (ai.toNat * 6 + f.toNat))
  else
    let r := freeQ s
    answer r.2 (.slice r.1.toNat)

/-! ### 3D surfaces -/

/-- `log2` of the alignment `(i * Bpp, j, k)` of TileYS and TileYF (R1278): `(Cu, Cv, Cr)`. -/
def align3DLog (big : Bool) (b : Bpe) : Nat × Nat × Nat :=
  match big, b with
  | true, .b128 => (8, 4, 4)
  | true, .b64 => (8, 4, 4)
  | true, .b32 => (7, 5, 4)
  | true, .b16 => (6, 5, 5)
  | true, .b8 => (6, 5, 5)
  | false, .b128 => (6, 3, 3)
  | false, .b64 => (6, 3, 3)
  | false, .b32 => (5, 4, 3)
  | false, .b16 => (4, 4, 4)
  | false, .b8 => (4, 4, 4)

/-- The alignment unit in texels (R1278, R1285). -/
def align3D (a : Surf2D) : Nat × Nat :=
  match a.tr with
  | .none => (a.i.toNat, a.j.toNat)
  | .yf => (2 ^ ((align3DLog false a.bpe).1 - bpeLog a.bpe), 2 ^ (align3DLog false a.bpe).2.1)
  | .ys => (2 ^ ((align3DLog true a.bpe).1 - bpeLog a.bpe), 2 ^ (align3DLog true a.bpe).2.1)

/-- The mip-tail offsets `(MU, MV, MR)` in texels, by slot and column (R1276). -/
def mipTail3D : List (List (Nat × Nat × Nat)) :=
  [[(8, 0, 0), (16, 0, 0), (16, 0, 0), (16, 0, 0), (32, 0, 0)],
   [(0, 8, 0), (0, 8, 0), (0, 16, 0), (0, 16, 0), (0, 16, 0)],
   [(0, 0, 8), (0, 0, 8), (0, 0, 8), (0, 0, 16), (0, 0, 16)],
   [(4, 0, 0), (8, 0, 0), (8, 0, 0), (8, 0, 0), (16, 0, 0)],
   [(0, 4, 0), (0, 4, 0), (0, 8, 0), (0, 8, 0), (0, 8, 0)],
   [(0, 0, 4), (0, 0, 4), (0, 0, 4), (0, 0, 8), (0, 0, 8)],
   [(3, 0, 0), (6, 0, 0), (4, 4, 0), (0, 4, 4), (0, 4, 4)],
   [(2, 0, 0), (4, 0, 0), (0, 4, 0), (0, 4, 0), (0, 4, 0)],
   [(1, 0, 3), (2, 0, 3), (4, 0, 3), (0, 0, 7), (0, 0, 7)],
   [(1, 0, 2), (2, 0, 2), (4, 0, 2), (0, 0, 6), (0, 0, 6)],
   [(1, 0, 1), (2, 0, 1), (4, 0, 1), (0, 0, 5), (0, 0, 5)],
   [(1, 0, 0), (2, 0, 0), (4, 0, 0), (0, 0, 4), (0, 0, 4)],
   [(0, 0, 3), (0, 0, 3), (0, 0, 3), (0, 0, 3), (0, 0, 3)],
   [(0, 0, 2), (0, 0, 2), (0, 0, 2), (0, 0, 2), (0, 0, 2)],
   [(0, 0, 1), (0, 0, 1), (0, 0, 1), (0, 0, 1), (0, 0, 1)],
   [(0, 0, 0), (0, 0, 0), (0, 0, 0), (0, 0, 0), (0, 0, 0)]]

/-- The offset of the LOD in elements, rows and slices (R1271, R1276). R1276 gives the mip-tail offsets in texels: in a
compressed format they are added unconverted, as elements, rows of elements and slices, as R1234 and R1238 add those of a
2D surface (DESIGN CHOICE, log entry 32). -/
def lodUVR3D (a : Surf2D) : Nat × Nat × Nat :=
  let size := lodElements { a with interleaved := false } (align3D a)
  if inMipTail a then
    let o := lodOffset2D size a.tail.toNat
    let slot := a.lod.toNat - a.tail.toNat + (if a.tr = .yf then 4 else 0)
    let m := (mipTail3D.getD slot []).getD (bpeColumn a.bpe) (0, 0, 0)
    (o.1 + m.1, o.2 + m.2.1, m.2.2)
  else ((lodOffset2D size a.lod.toNat).1, (lodOffset2D size a.lod.toNat).2, 0)

/-- The offset of a 3D TileYS or TileYF surface (R1272); the order of the bits inside a tile is open (U37). -/
def tiled3DOffset (big : Bool) (b : Bpe) (pitch qpitch u v r : Nat) : Nat :=
  let c := align3DLog big b
  let id := ((r >>> c.2.2) * (qpitch >>> c.2.1) + (v >>> c.2.1)) * (pitch >>> c.1) + (u >>> c.1)
  let n := c.1 + c.2.1 + c.2.2
  id <<< n + Config.tile3DSwizzle big (bpeLog b) (u % 2 ^ c.1) (v % 2 ^ c.2.1) (r % 2 ^ c.2.2) % 2 ^ n

/-- The offset of `SURF.3D` (R1272): a tile without depth is that of a 2D surface at row `r * QPitch + v`. The rule names
Linear, TileX and TileY; that TileW follows them, and that X_Offset and Y_Offset are added as in a 2D surface (R1220,
`bytesUV2D`), is the model's choice (log entry 32). -/
def surf3DOffset (a : Surf2D) : Nat :=
  let lod := lodUVR3D a
  let u := (a.u.toNat + lod.1 + a.xoff.toNat) <<< bpeLog a.bpe
  let v := lod.2.1 + a.v.toNat + a.yoff.toNat
  let r := lod.2.2 + a.r.toNat
  match a.tr with
  | .none => shapedOffset (legacyShape a.tile) a.pitch.toNat u (r * a.qpitch.toNat + v) 0
  | .yf => tiled3DOffset false a.bpe a.pitch.toNat a.qpitch.toNat u v r
  | .ys => tiled3DOffset true a.bpe a.pitch.toNat a.qpitch.toNat u v r

/-- The tile width of a 3D surface, as a power of 2 (R1232, R1278). -/
def cu3D (a : Surf2D) : Nat :=
  match a.tr with
  | .none => (legacyShape a.tile).cu
  | .yf => (align3DLog false a.bpe).1
  | .ys => (align3DLog true a.bpe).1

/-- The operands of SURF.3D for which the spec states an offset; a LOD in the tail is one of the rows of the table (R1276). -/
def stated3D (a : Surf2D) : Bool :=
  let d := a.lod.toNat - a.tail.toNat
  shapeStated a (cu3D a) && match a.tr with
    | .none => true
    | .yf => decide (d ≤ 11)
    | .ys => true

/-- SURF.3D (R1272). -/
def execSurf3D (a : Surf2D) (s : State) : Host.Outcome State Fault Refusal :=
  if !baseAligned2D a then .refused .surfaceMisaligned
  else if stated3D a then answerOffset s a.base.toNat (surf3DOffset a)
  else freeAddress s

/-- `D_L` and `d_L` of a 3D surface with depth alignment `k` (R1271). -/
def depth3D (depth k l : Nat) : Nat × Nat := (lodExtent depth l, alignTo k (lodExtent depth l))

/-- The offset of a byte of the CCS of a 3D surface (R1274): TileY, with the slices stacked. -/
def ccs3DOffset (pitch qpitch lodU lodV u v r : Nat) : Nat :=
  shapedOffset (legacyShape .tileY) pitch (u + lodU) (r * qpitch + lodV + v) 0

/-! ### Padding -/

/-- `SURF.PAD` (R1287, R1289). -/
def surfPadding (a : SurfPad) : PadResult :=
  if a.simple && a.linear then
    { width := a.width.toNat, height := a.height.toNat, extraBytes := 0, roundEnd := true }
  else
    let je := match a.cls with
      | .compressed => 2 * a.q.toNat
      | .plain => a.j.toNat
      | .odd => a.j.toNat
    let odd := match a.cls with
      | .odd => true
      | .plain => false
      | .compressed => false
    { width := alignTo a.i.toNat a.width.toNat
      height := alignTo je a.height.toNat + (if a.cube then 2 else 0) + (if odd then 1 else 0)
      extraBytes := (if odd then 16 else 0) + (if a.linear then 64 else 0)
      roundEnd := false }

/-- The alignment unit of the padding is not empty: of the width, and of the height. A surface of the programming note
needs neither. -/
def statedPad (a : SurfPad) : Bool × Bool :=
  let je := match a.cls with
    | .compressed => a.q != 0
    | .plain => a.j != 0
    | .odd => a.j != 0
  ((a.simple && a.linear) || a.i != 0, (a.simple && a.linear) || je)

/-- SURF.PAD (R1289). A size that an empty alignment unit leaves without a value is a free value (log entry 33). -/
def execSurfPad (a : SurfPad) (s : State) : Host.Outcome State Fault Refusal :=
  let p := surfPadding a
  match statedPad a with
  | (true, true) => answer s (.pad p)
  | (true, false) =>
    let h := freeQ s
    answer h.2 (.pad { p with height := h.1.toNat })
  | (false, true) =>
    let w := freeQ s
    answer w.2 (.pad { p with width := w.1.toNat })
  | (false, false) =>
    let w := freeQ s
    let h := freeQ w.2
    answer h.2 (.pad { p with width := w.1.toNat, height := h.1.toNat })

end Sys2Proof.Machine
end

