-- ==== Sys2Proof/WellFormed.lean ====
section
/-! DEFINITION. Which operands an operation of the opcode table can have: a row of a texture mode needs its mode bits in
the block. Every other row takes every operand; where the spec states no result for some of them the meaning answers a
free value (log entry 33). -/
namespace Sys2Proof

open Machine

/-- Why an operation is ill-formed. -/
inductive IllFormed where
  /-- A mode row needs its mode bits in the block: with others the block is another row's (R342). -/
  | modeBits
  deriving DecidableEq, Repr

/-- The first requirement that does not hold. -/
def firstBroken : List (Bool × IllFormed) → Option IllFormed
  | [] => none
  | (ok, e) :: xs => if ok then firstBroken xs else some e

/-- The one requirement of a mode row. -/
def modeCheck (ok : Bool) : Option IllFormed := firstBroken [(ok, .modeBits)]

/-- `V[4:0]`. -/
def bc6Bits (v : BitVec 128) : Nat := bits v 4 0

/-- The lowest set bit of `V[7:0]` is bit `k` (R1042). -/
def bc7ModeIs (v : BitVec 128) (k : Nat) : Bool := bits v k 0 == 2 ^ k

/-- The requirement an operation breaks, if any. -/
def Instr.check (i : Instr) : Option IllFormed :=
  match i with
  | .tileFence _ _ _ _ => none
  | .fxt1Hi v _ => modeCheck (bits v 127 126 == 0)
  | .fxt1Chroma v _ => modeCheck (bits v 127 125 == 2)
  | .fxt1Mixed v _ => modeCheck (bits v 127 127 == 1)
  | .fxt1Alpha v _ => modeCheck (bits v 127 125 == 3)
  | .bc6hMode0 v _ _ => modeCheck (bits v 1 0 == 0)
  | .bc6hMode1 v _ _ => modeCheck (bits v 1 0 == 1)
  | .bc6hMode2 v _ _ => modeCheck (bc6Bits v == 0b00010)
  | .bc6hMode3 v _ _ => modeCheck (bc6Bits v == 0b00110)
  | .bc6hMode4 v _ _ => modeCheck (bc6Bits v == 0b01010)
  | .bc6hMode5 v _ _ => modeCheck (bc6Bits v == 0b01110)
  | .bc6hMode6 v _ _ => modeCheck (bc6Bits v == 0b10010)
  | .bc6hMode7 v _ _ => modeCheck (bc6Bits v == 0b10110)
  | .bc6hMode8 v _ _ => modeCheck (bc6Bits v == 0b11010)
  | .bc6hMode9 v _ _ => modeCheck (bc6Bits v == 0b11110)
  | .bc6hMode10 v _ _ => modeCheck (bc6Bits v == 0b00011)
  | .bc6hMode11 v _ _ => modeCheck (bc6Bits v == 0b00111)
  | .bc6hMode12 v _ _ => modeCheck (bc6Bits v == 0b01011)
  | .bc6hMode13 v _ _ => modeCheck (bc6Bits v == 0b01111)
  | .bc6hUndef10011 v _ _ => modeCheck (bc6Bits v == 0b10011)
  | .bc6hUndef10111 v _ _ => modeCheck (bc6Bits v == 0b10111)
  | .bc6hUndef11011 v _ _ => modeCheck (bc6Bits v == 0b11011)
  | .bc6hUndef11111 v _ _ => modeCheck (bc6Bits v == 0b11111)
  | .bc7Mode0 v _ _ => modeCheck (bc7ModeIs v 0)
  | .bc7Mode1 v _ _ => modeCheck (bc7ModeIs v 1)
  | .bc7Mode2 v _ _ => modeCheck (bc7ModeIs v 2)
  | .bc7Mode3 v _ _ => modeCheck (bc7ModeIs v 3)
  | .bc7Mode4 v _ _ => modeCheck (bc7ModeIs v 4)
  | .bc7Mode5 v _ _ => modeCheck (bc7ModeIs v 5)
  | .bc7Mode6 v _ _ => modeCheck (bc7ModeIs v 6)
  | .bc7Mode7 v _ _ => modeCheck (bc7ModeIs v 7)
  | .bc7Undef v _ _ => modeCheck (bits v 7 0 == 0)
  | .astc _ _ _ _ _ => none
  | .bufTyped _ _ _ _ => none
  | .bufStructured _ _ _ _ => none
  | .surf1D _ => none
  | .surf2D _ => none
  | .mcsDecode _ _ _ => none
  | .surfCube _ _ => none
  | .surf3D _ => none
  | .surfPad _ => none
  | .tileLinear _ _ _ _ => none
  | .tileX _ _ _ _ => none
  | .tileY _ _ _ _ => none
  | .tileW _ _ _ _ => none
  | .tileYs64 _ _ => none
  | .tileYs16 _ _ => none
  | .tileYs8 _ _ => none
  | .tileYsMsaa2_64 _ _ _ => none
  | .tileYsMsaa2_16 _ _ _ => none
  | .tileYsMsaa2_8 _ _ _ => none
  | .tileYsMsaa4_64 _ _ _ => none
  | .tileYsMsaa4_16 _ _ _ => none
  | .tileYsMsaa4_8 _ _ _ => none
  | .tileYsMsaa8_64 _ _ _ => none
  | .tileYsMsaa8_16 _ _ _ => none
  | .tileYsMsaa8_8 _ _ _ => none
  | .tileYsMsaa16_64 _ _ _ => none
  | .tileYsMsaa16_16 _ _ _ => none
  | .tileYsMsaa16_8 _ _ _ => none
  | .tileYf64 _ _ => none
  | .tileYf16 _ _ => none
  | .tileYf8 _ _ => none
  | .trttWalk _ => none
  | .ggttWalk _ _ _ => none
  | .ppgtt32Walk _ _ _ _ _ => none
  | .ppgtt48Walk _ _ _ _ _ => none
  | .ia32eWalk _ _ _ _ _ => none
  | .tlbInvalidate _ _ => none
  | .hdcPageReq _ => none
  | .hdcPageResp _ => none
  | .hdcTlbInv _ => none
  | .pageUpdate0000 _ => none
  | .pageUpdate0001 _ => none
  | .pageUpdate0010 _ => none
  | .pageUpdate0011 _ => none
  | .pageUpdate0100 _ => none
  | .pageUpdate0101 _ => none
  | .pageUpdate0110 _ => none
  | .pageUpdate0111 _ => none
  | .pageUpdate1000 _ => none
  | .pageUpdate1001 _ => none
  | .pageUpdate1010 _ => none
  | .pageUpdate1011 _ => none
  | .pageUpdate1100 _ => none
  | .pageUpdate1101 _ => none
  | .pageUpdate1110 _ => none
  | .pageUpdate1111 _ => none
  | .aUpdate000 _ => none
  | .aUpdate001 _ => none
  | .aUpdate010 _ => none
  | .aUpdate011 _ => none
  | .aUpdate100 _ => none
  | .adUpdate101 _ => none
  | .adUpdate110 _ => none
  | .adUpdate111 _ => none
  | .fmtR1 _ _ => none
  | .fmtP4A4 _ => none
  | .fmtA4P4 _ => none
  | .fmtP8A8 _ => none
  | .fmtA8P8 _ => none
  | .fmtP8 _ => none
  | .fmtP2 _ _ => none
  | .fmtYuv422 _ _ => none
  | .etc1 _ _ => none
  | .etc2 _ _ _ => none
  | .eacR11 _ _ _ => none
  | .etc2Pta _ _ _ => none
  | .etc2EacRgba8 _ _ _ => none
  | .eacR8 _ _ => none
  | .eacRg11 _ _ _ => none
  | .fxt1 _ _ => none
  | .dxt1 _ _ _ => none
  | .dxt1Rgb _ _ _ => none
  | .dxt3 _ _ => none
  | .dxt5 _ _ => none
  | .bc4 _ _ _ => none
  | .bc5 _ _ _ => none
  | .bc6h _ _ _ => none
  | .bc7 _ _ _ => none
  | .astcHeader _ _ _ => none
  | .bufRaw _ _ => none
  | .surfQuilt _ _ _ _ _ => none

/-- An operation whose operands meet every requirement. -/
abbrev Instr.WellFormed (i : Instr) : Prop := i.check = none

end Sys2Proof
end

