-- ==== Sys2Proof/Decode.lean ====
section
/-! DEFINITION. The records that name operations: the decoder, total on any bytes, and the encoder. The spec gives
binary forms only to the sixteen page-update atomics (spec/30_encoding.md R334) and to the mode bits inside FXT1, BC6H
and BC7 blocks (R342, R1001, R1042); the rest of the record layout is the model's own (log entry 1). A record is 64
bytes: byte 63 the family, byte 62 the member, the operands from byte 0 on, little-endian, zeros after them. Family 0 is
the bare page: an opcode byte `1100_kkkk` and its address, or a 16-byte texture block. -/
namespace Sys2Proof

open Machine

/-- Why bytes are no operation. -/
inductive DecodeError where
  /-- Not 64 bytes. -/
  | notRecord
  /-- No family, or no member of the family, has this number. -/
  | unknownFamily
  | unknownMember
  /-- An operand byte outside its field's values, or too few bytes. -/
  | badField
  /-- A byte after the operands is not zero. -/
  | badPadding
  /-- The operands break a requirement of the spec. -/
  | illFormed (r : IllFormed)
  deriving DecidableEq, Repr

/-! ### Operand codecs -/

/-- A way to lay values out in bytes and to read them back. -/
structure Codec (α : Type) where
  enc : α → List Byte
  dec : List Byte → Option (α × List Byte)

/-- A bit field in `n` little-endian bytes; the bits above the field are zero. -/
def Codec.bv (w n : Nat) : Codec (BitVec w) where
  enc v := leBytes n v.toNat
  dec bs :=
    if n ≤ bs.length ∧ leNat (bs.take n) < 2 ^ w then some (BitVec.ofNat w (leNat (bs.take n)), bs.drop n) else none

/-- One byte numbering the values of a closed type. -/
def Codec.enum {α : Type} [DecidableEq α] (xs : List α) : Codec α where
  enc a := [BitVec.ofNat 8 (xs.idxOf a)]
  dec bs :=
    match bs with
    | [] => none
    | b :: rest => (xs[b.toNat]?).map (fun a => (a, rest))

/-- A Boolean, 0 or 1. -/
def Codec.bool : Codec Bool := .enum [false, true]

/-- One value after another. -/
def Codec.pair {α β : Type} (c : Codec α) (d : Codec β) : Codec (α × β) where
  enc x := c.enc x.1 ++ d.enc x.2
  dec bs :=
    match c.dec bs with
    | none => none
    | some (a, rest) =>
      match d.dec rest with
      | none => none
      | some (b, rest') => some ((a, b), rest')

/-- The same bytes for a type of the same shape. -/
def Codec.map {α β : Type} (c : Codec α) (f : α → β) (g : β → α) : Codec β where
  enc b := c.enc (g b)
  dec bs := (c.dec bs).map (fun x => (f x.1, x.2))

/-- A tag byte and one of two shapes. -/
def Codec.sum {α β : Type} (c : Codec α) (d : Codec β) : Codec (α ⊕ β) where
  enc x :=
    match x with
    | .inl a => 0 :: c.enc a
    | .inr b => 1 :: d.enc b
  dec bs :=
    match bs with
    | [] => none
    | t :: rest =>
      if t = 0 then (c.dec rest).map (fun x => (.inl x.1, x.2))
      else if t = 1 then (d.dec rest).map (fun x => (.inr x.1, x.2))
      else none

/-- No bytes. -/
def Codec.unit : Codec Unit where
  enc _ := []
  dec bs := some ((), bs)

/-! ### Codecs of the operands -/

/-- The five engines (R662). -/
def cEngine : Codec Engine :=
  .enum [.render, .vcs0, .vcs1, .vecs, .bcs]

/-- The client tags (R1306, R207, R700). -/
def cClient : Codec Client :=
  .enum [.hdcCoherent, .hdcNoncoherent, .ic, .sampler, .other, .state, .command, .vertex, .color, .depth, .media]

/-- The accesses (R570). -/
def cAcc : Codec Acc :=
  .enum [.read, .fetch, .write, .atomic]

/-- The engine of a global walk, or none (R571). -/
def cOptEngine : Codec (Option Engine) :=
  .map (.sum .unit cEngine) (fun x => match x with | .inl _ => none | .inr e => some e)
    (fun e => match e with | none => .inl () | some e => .inr e)

/-- The walk of a fence (R423). -/
def cWalkDir : Codec TileWalk :=
  .enum [.x, .y, .w]

/-- The packed YUV formats (R881). -/
def cYuv : Codec YuvFormat :=
  .enum [.normal, .swapUvy, .swapUv, .swapY]

/-- Tile_Mode (R407). -/
def cTileMode : Codec TileMode :=
  .enum [.linear, .tileX, .tileY, .tileW]

/-- Tiled_Resource_Mode (R407). -/
def cTr : Codec TrMode :=
  .enum [.none, .yf, .ys]

/-- Element sizes (R1206). -/
def cBpe : Codec Bpe :=
  .enum [.b8, .b16, .b32, .b64, .b128]

/-- Numbers of multisamples (R1237). -/
def cSamples : Codec Samples :=
  .enum [.s1, .s2, .s4, .s8, .s16]

/-- The format classes of the padding rule (R1287). -/
def cPad : Codec PadClass :=
  .enum [.plain, .compressed, .odd]

/-- The fault codes, by number (R1302). -/
def cCode : Codec FaultCode :=
  .enum [.noFault, .notPresent, .privilege, .writePermission]

/-- The fault models (R1308). -/
def cModel : Codec FaultModel :=
  .enum [.hang, .halt, .stream]

/-- The memory types (R745). -/
def cMem : Codec MemType :=
  .enum [.uc, .wc, .wt, .wp, .wb]

/-- Row and column of a texel. -/
def cPos : Codec Pos :=
  .map (.pair (.bv 2 1) (.bv 2 1)) (fun x => { row := x.1, col := x.2 }) (fun n => (n.row, n.col))

/-- The scope of an invalidation (R730). -/
def cScope : Codec InvScope :=
  .map (.sum (.sum .unit cEngine) (.sum (.bv 20 3) (.pair (.bv 20 3) (.bv 36 5))))
    (fun x => match x with
      | .inl (.inl _) => .all
      | .inl (.inr e) => .engine e
      | .inr (.inl p) => .pasid p
      | .inr (.inr y) => .page y.1 y.2)
    (fun k => match k with
      | .all => .inl (.inl ())
      | .engine e => .inl (.inr e)
      | .pasid p => .inr (.inl p)
      | .page p n => .inr (.inr (p, n)))

/-- The structures of an invalidation (R730). -/
def cStructs : Codec InvStructs :=
  .map (.pair .bool (.pair .bool .bool)) (fun x => { pwc := x.1, pasidCache := x.2.1, contextCache := x.2.2 })
    (fun s => (s.pwc, s.pasidCache, s.contextCache))

/-- A page request message (R742). -/
def cPageReq : Codec PageReqMsg :=
  .map (.pair .bool (.pair (.bv 2 1) (.pair (.bv 2 1) (.pair (.bv 36 5) (.pair .bool (.pair (.bv 8 1) .bool))))))
    (fun x => { valid := x.1, slice := x.2.1, hdc := x.2.2.1, vpage := x.2.2.2.1, write := x.2.2.2.2.1,
                tracking := x.2.2.2.2.2.1, faultable := x.2.2.2.2.2.2 })
    (fun m => (m.valid, m.slice, m.hdc, m.vpage, m.write, m.tracking, m.faultable))

/-- A page response message (R744). -/
def cPageResp : Codec PageRespMsg :=
  .map (.pair .bool (.pair (.bv 27 4) (.pair .bool (.pair (.bv 2 1) (.pair (.bv 2 1) (.pair .bool (.pair cCode
      (.pair cMem (.pair (.bv 8 1) cModel)))))))))
    (fun x => { valid := x.1, pa := x.2.1, write := x.2.2.1, slice := x.2.2.2.1, hdc := x.2.2.2.2.1,
                d := x.2.2.2.2.2.1, code := x.2.2.2.2.2.2.1, memType := x.2.2.2.2.2.2.2.1,
                tracking := x.2.2.2.2.2.2.2.2.1, mode := x.2.2.2.2.2.2.2.2.2 })
    (fun m => (m.valid, m.pa, m.write, m.slice, m.hdc, m.d, m.code, m.memType, m.tracking, m.mode))

/-- An invalidation handshake message (R746). -/
def cTlbInv : Codec TlbInvMsg :=
  .map (.sum .unit (.sum .unit (.pair (.bv 2 1) (.bv 2 1))))
    (fun x => match x with
      | .inl _ => .start
      | .inr (.inl _) => .stop
      | .inr (.inr y) => .ack y.1 y.2)
    (fun m => match m with
      | .start => .inl ()
      | .stop => .inr (.inl ())
      | .ack s h => .inr (.inr (s, h)))

/-- Operands of SURF.1D (R1214). -/
def cSurf1D : Codec Surf1D :=
  .map (.pair (.bv 64 8) (.pair (.bv 32 4) (.pair (.bv 32 4) (.pair cBpe (.pair cTr (.pair (.bv 4 1) (.pair (.bv 4 1)
      (.pair (.bv 5 1) (.pair .bool (.pair (.bv 32 4) (.bv 32 4)))))))))))
    (fun x => { base := x.1, width := x.2.1, qpitch := x.2.2.1, bpe := x.2.2.2.1, tr := x.2.2.2.2.1,
                tail := x.2.2.2.2.2.1, lod := x.2.2.2.2.2.2.1, mips := x.2.2.2.2.2.2.2.1,
                inTail := x.2.2.2.2.2.2.2.2.1, r := x.2.2.2.2.2.2.2.2.2.1, u := x.2.2.2.2.2.2.2.2.2.2 })
    (fun a => (a.base, a.width, a.qpitch, a.bpe, a.tr, a.tail, a.lod, a.mips, a.inTail, a.r, a.u))

/-- The shape of a surface: the first half of the operands of SURF.2D (R1234). -/
def cSurfShape : Codec (BitVec 64 × BitVec 32 × BitVec 32 × BitVec 32 × BitVec 32 × TileMode × TrMode × Bpe × BitVec 8 × BitVec 8) :=
  .pair (.bv 64 8) (.pair (.bv 32 4) (.pair (.bv 32 4) (.pair (.bv 32 4) (.pair (.bv 32 4) (.pair cTileMode (.pair cTr
    (.pair cBpe (.pair (.bv 8 1) (.bv 8 1)))))))))

/-- The position in a surface: the second half of the operands of SURF.2D (R1234). -/
def cSurfPos : Codec (BitVec 16 × BitVec 16 × BitVec 16 × BitVec 4 × BitVec 4 × BitVec 5 × Samples × Bool × Bool × BitVec 32 × BitVec 32 × BitVec 32 × BitVec 32 ×
    BitVec 32 × BitVec 4) :=
  .pair (.bv 16 2) (.pair (.bv 16 2) (.pair (.bv 16 2) (.pair (.bv 4 1) (.pair (.bv 4 1) (.pair (.bv 5 1) (.pair cSamples
    (.pair .bool (.pair .bool (.pair (.bv 32 4) (.pair (.bv 32 4) (.pair (.bv 32 4) (.pair (.bv 32 4) (.pair (.bv 32 4)
    (.bv 4 1))))))))))))))

/-- Operands of SURF.2D and SURF.3D (R1234, R1272). -/
def cSurf2D : Codec Surf2D :=
  .map (.pair cSurfShape cSurfPos)
    (fun z =>
      let x := z.1
      let y := z.2
      { base := x.1, width := x.2.1, height := x.2.2.1, pitch := x.2.2.2.1, qpitch := x.2.2.2.2.1,
        tile := x.2.2.2.2.2.1, tr := x.2.2.2.2.2.2.1, bpe := x.2.2.2.2.2.2.2.1, p := x.2.2.2.2.2.2.2.2.1,
        q := x.2.2.2.2.2.2.2.2.2, i := y.1, j := y.2.1, k := y.2.2.1, tail := y.2.2.2.1,
        lod := y.2.2.2.2.1, mips := y.2.2.2.2.2.1, samples := y.2.2.2.2.2.2.1,
        interleaved := y.2.2.2.2.2.2.2.1, inTail := y.2.2.2.2.2.2.2.2.1, xoff := y.2.2.2.2.2.2.2.2.2.1,
        yoff := y.2.2.2.2.2.2.2.2.2.2.1, r := y.2.2.2.2.2.2.2.2.2.2.2.1, u := y.2.2.2.2.2.2.2.2.2.2.2.2.1,
        v := y.2.2.2.2.2.2.2.2.2.2.2.2.2.1, ss := y.2.2.2.2.2.2.2.2.2.2.2.2.2.2 })
    (fun a => ((a.base, a.width, a.height, a.pitch, a.qpitch, a.tile, a.tr, a.bpe, a.p, a.q),
      (a.i, a.j, a.k, a.tail, a.lod, a.mips, a.samples, a.interleaved, a.inTail, a.xoff, a.yoff, a.r, a.u, a.v, a.ss)))

/-- Operands of SURF.PAD (R1289). -/
def cSurfPad : Codec SurfPad :=
  .map (.pair (.bv 32 4) (.pair (.bv 32 4) (.pair (.bv 16 2) (.pair (.bv 16 2) (.pair (.bv 8 1) (.pair cPad
      (.pair .bool (.pair .bool .bool))))))))
    (fun x => { width := x.1, height := x.2.1, i := x.2.2.1, j := x.2.2.2.1, q := x.2.2.2.2.1, cls := x.2.2.2.2.2.1,
                linear := x.2.2.2.2.2.2.1, cube := x.2.2.2.2.2.2.2.1, simple := x.2.2.2.2.2.2.2.2 })
    (fun a => (a.width, a.height, a.i, a.j, a.q, a.cls, a.linear, a.cube, a.simple))

/-- Base, pitch, x, y (R419 to R422). -/
def kTile : Codec (BitVec 64 × BitVec 32 × BitVec 32 × BitVec 32) :=
  .pair (.bv 64 8) (.pair (.bv 32 4) (.pair (.bv 32 4) (.bv 32 4)))

/-- Operands of TILE.FENCE (R423). -/
def kFence : Codec (BitVec 64 × BitVec 64 × BitVec 32 × TileWalk) :=
  .pair (.bv 64 8) (.pair (.bv 64 8) (.pair (.bv 32 4) cWalkDir))

/-- x and y of a tile function (R427). -/
def kXY : Codec (BitVec 16 × BitVec 16) :=
  .pair (.bv 16 2) (.bv 16 2)

/-- x, y and sample of a tile function (R430). -/
def kXYS : Codec (BitVec 16 × BitVec 16 × BitVec 16) :=
  .pair (.bv 16 2) (.pair (.bv 16 2) (.bv 16 2))

/-- Operands of GGTT.WALK (R572). -/
def kGgtt : Codec (Option Engine × Acc × BitVec 64) :=
  .pair cOptEngine (.pair cAcc (.bv 64 8))

/-- Operands of the other walks (R574 to R578). -/
def kWalk : Codec (Engine × Client × BitVec 6 × Acc × BitVec 64) :=
  .pair cEngine (.pair cClient (.pair (.bv 6 1) (.pair cAcc (.bv 64 8))))

/-- Operands of TLB.INVALIDATE (R730). -/
def kInv : Codec (InvScope × InvStructs) :=
  .pair cScope cStructs

/-- Operands of FMT.R1 (R824). -/
def kR1 : Codec (BitVec 8 × BitVec 3) :=
  .pair (.bv 8 1) (.bv 3 1)

/-- Operands of FMT.P2_UNORM (R832). -/
def kP2 : Codec (BitVec 8 × BitVec 2) :=
  .pair (.bv 8 1) (.bv 2 1)

/-- Operands of FMT.YUV422 (R881). -/
def kYuv : Codec (YuvFormat × BitVec 32) :=
  .pair cYuv (.bv 32 4)

/-- A 64-bit block and a texel. -/
def kB64 : Codec (BitVec 64 × Pos) :=
  .pair (.bv 64 8) cPos

/-- A 64-bit block, a texel and a format flag. -/
def kB64F : Codec (BitVec 64 × Pos × Bool) :=
  .pair (.bv 64 8) (.pair cPos .bool)

/-- A 128-bit block and a texel. -/
def kB128 : Codec (BitVec 128 × Pos) :=
  .pair (.bv 128 16) cPos

/-- A 128-bit block, a texel and a format flag. -/
def kB128F : Codec (BitVec 128 × Pos × Bool) :=
  .pair (.bv 128 16) (.pair cPos .bool)

/-- A 128-bit block and an FXT1 texel number (R924). -/
def kFxt : Codec (BitVec 128 × BitVec 5) :=
  .pair (.bv 128 16) (.bv 5 1)

/-- Operands of ASTC.DECODE (R1150). -/
def kAstc : Codec (BitVec 128 × BitVec 9 × BitVec 4 × BitVec 4 × BitVec 4) :=
  .pair (.bv 128 16) (.pair (.bv 9 2) (.pair (.bv 4 1) (.pair (.bv 4 1) (.bv 4 1))))

/-- Operands of ASTC.HEADER.PARSE (R1152). -/
def kAstcHead : Codec (BitVec 128 × BitVec 5 × BitVec 32) :=
  .pair (.bv 128 16) (.pair (.bv 5 1) (.bv 32 4))

/-- Operands of BUF.RAW (R1204). -/
def kRaw : Codec (BitVec 64 × BitVec 64) :=
  .pair (.bv 64 8) (.bv 64 8)

/-- Operands of MCS.DECODE (R1258). -/
def kMcs : Codec (Samples × BitVec 64 × BitVec 4) :=
  .pair cSamples (.pair (.bv 64 8) (.bv 4 1))

/-- Operands of SURF.QUILT (R1266). -/
def kQuilt : Codec (BitVec 32 × BitVec 32 × BitVec 32 × BitVec 32 × BitVec 32) :=
  .pair (.bv 32 4) (.pair (.bv 32 4) (.pair (.bv 32 4) (.pair (.bv 32 4) (.bv 32 4))))

/-- Operands of SURF.CUBE (R1268). -/
def kCube : Codec (BitVec 32 × BitVec 3) :=
  .pair (.bv 32 4) (.bv 3 1)

/-! ### Rows -/

/-- Accept an operation that meets the spec's requirements. -/
def checked (i : Instr) : Except DecodeError Instr :=
  match i.check with
  | none => .ok i
  | some r => .error (.illFormed r)

/-- Read the operands of a row; what follows them is zero. -/
def row {α : Type} (c : Codec α) (mk : α → Instr) (p : List Byte) : Except DecodeError Instr :=
  match c.dec p with
  | none => .error .badField
  | some (a, rest) => if rest.all (fun b => b == 0) then checked (mk a) else .error .badPadding

/-- Tile functions. -/
def decodeTiling (k : Nat) (p : List Byte) : Except DecodeError Instr :=
  match k with
  | 0 => row kTile (fun x => .tileLinear x.1 x.2.1 x.2.2.1 x.2.2.2) p
  | 1 => row kTile (fun x => .tileX x.1 x.2.1 x.2.2.1 x.2.2.2) p
  | 2 => row kTile (fun x => .tileY x.1 x.2.1 x.2.2.1 x.2.2.2) p
  | 3 => row kTile (fun x => .tileW x.1 x.2.1 x.2.2.1 x.2.2.2) p
  | 4 => row kFence (fun x => .tileFence x.1 x.2.1 x.2.2.1 x.2.2.2) p
  | 5 => row kXY (fun x => .tileYs64 x.1 x.2) p
  | 6 => row kXY (fun x => .tileYs16 x.1 x.2) p
  | 7 => row kXY (fun x => .tileYs8 x.1 x.2) p
  | 8 => row kXYS (fun x => .tileYsMsaa2_64 x.1 x.2.1 x.2.2) p
  | 9 => row kXYS (fun x => .tileYsMsaa2_16 x.1 x.2.1 x.2.2) p
  | 10 => row kXYS (fun x => .tileYsMsaa2_8 x.1 x.2.1 x.2.2) p
  | 11 => row kXYS (fun x => .tileYsMsaa4_64 x.1 x.2.1 x.2.2) p
  | 12 => row kXYS (fun x => .tileYsMsaa4_16 x.1 x.2.1 x.2.2) p
  | 13 => row kXYS (fun x => .tileYsMsaa4_8 x.1 x.2.1 x.2.2) p
  | 14 => row kXYS (fun x => .tileYsMsaa8_64 x.1 x.2.1 x.2.2) p
  | 15 => row kXYS (fun x => .tileYsMsaa8_16 x.1 x.2.1 x.2.2) p
  | 16 => row kXYS (fun x => .tileYsMsaa8_8 x.1 x.2.1 x.2.2) p
  | 17 => row kXYS (fun x => .tileYsMsaa16_64 x.1 x.2.1 x.2.2) p
  | 18 => row kXYS (fun x => .tileYsMsaa16_16 x.1 x.2.1 x.2.2) p
  | 19 => row kXYS (fun x => .tileYsMsaa16_8 x.1 x.2.1 x.2.2) p
  | 20 => row kXY (fun x => .tileYf64 x.1 x.2) p
  | 21 => row kXY (fun x => .tileYf16 x.1 x.2) p
  | 22 => row kXY (fun x => .tileYf8 x.1 x.2) p
  | _ => .error .unknownMember

/-- Walks, invalidation and the HDC port. -/
def decodeWalk (k : Nat) (p : List Byte) : Except DecodeError Instr :=
  match k with
  | 0 => row (.bv 64 8) (fun x => .trttWalk x) p
  | 1 => row kGgtt (fun x => .ggttWalk x.1 x.2.1 x.2.2) p
  | 2 => row kWalk (fun x => .ppgtt32Walk x.1 x.2.1 x.2.2.1 x.2.2.2.1 x.2.2.2.2) p
  | 3 => row kWalk (fun x => .ppgtt48Walk x.1 x.2.1 x.2.2.1 x.2.2.2.1 x.2.2.2.2) p
  | 4 => row kWalk (fun x => .ia32eWalk x.1 x.2.1 x.2.2.1 x.2.2.2.1 x.2.2.2.2) p
  | 5 => row kInv (fun x => .tlbInvalidate x.1 x.2) p
  | 6 => row cPageReq (fun x => .hdcPageReq x) p
  | 7 => row cPageResp (fun x => .hdcPageResp x) p
  | 8 => row cTlbInv (fun x => .hdcTlbInv x) p
  | _ => .error .unknownMember

/-- The atomics without an opcode (R335). -/
def decodeUpdate (k : Nat) (p : List Byte) : Except DecodeError Instr :=
  match k with
  | 0 => row (.bv 64 8) (fun x => .aUpdate000 x) p
  | 1 => row (.bv 64 8) (fun x => .aUpdate001 x) p
  | 2 => row (.bv 64 8) (fun x => .aUpdate010 x) p
  | 3 => row (.bv 64 8) (fun x => .aUpdate011 x) p
  | 4 => row (.bv 64 8) (fun x => .aUpdate100 x) p
  | 5 => row (.bv 64 8) (fun x => .adUpdate101 x) p
  | 6 => row (.bv 64 8) (fun x => .adUpdate110 x) p
  | 7 => row (.bv 64 8) (fun x => .adUpdate111 x) p
  | _ => .error .unknownMember

/-- Pixel formats. -/
def decodeFormat (k : Nat) (p : List Byte) : Except DecodeError Instr :=
  match k with
  | 0 => row kR1 (fun x => .fmtR1 x.1 x.2) p
  | 1 => row (.bv 8 1) (fun x => .fmtP4A4 x) p
  | 2 => row (.bv 8 1) (fun x => .fmtA4P4 x) p
  | 3 => row (.bv 16 2) (fun x => .fmtP8A8 x) p
  | 4 => row (.bv 16 2) (fun x => .fmtA8P8 x) p
  | 5 => row (.bv 8 1) (fun x => .fmtP8 x) p
  | 6 => row kP2 (fun x => .fmtP2 x.1 x.2) p
  | 7 => row kYuv (fun x => .fmtYuv422 x.1 x.2) p
  | _ => .error .unknownMember

/-- ETC and EAC blocks. -/
def decodeEtc (k : Nat) (p : List Byte) : Except DecodeError Instr :=
  match k with
  | 0 => row kB64 (fun x => .etc1 x.1 x.2) p
  | 1 => row kB64F (fun x => .etc2 x.1 x.2.1 x.2.2) p
  | 2 => row kB64F (fun x => .eacR11 x.1 x.2.1 x.2.2) p
  | 3 => row kB64F (fun x => .etc2Pta x.1 x.2.1 x.2.2) p
  | 4 => row kB128F (fun x => .etc2EacRgba8 x.1 x.2.1 x.2.2) p
  | 5 => row kB64 (fun x => .eacR8 x.1 x.2) p
  | 6 => row kB128F (fun x => .eacRg11 x.1 x.2.1 x.2.2) p
  | _ => .error .unknownMember

/-- FXT1 blocks. -/
def decodeFxt1 (k : Nat) (p : List Byte) : Except DecodeError Instr :=
  match k with
  | 0 => row kFxt (fun x => .fxt1 x.1 x.2) p
  | 1 => row kFxt (fun x => .fxt1Hi x.1 x.2) p
  | 2 => row kFxt (fun x => .fxt1Chroma x.1 x.2) p
  | 3 => row kFxt (fun x => .fxt1Mixed x.1 x.2) p
  | 4 => row kFxt (fun x => .fxt1Alpha x.1 x.2) p
  | _ => .error .unknownMember

/-- DXT, BC4 and BC5 blocks. -/
def decodeDxt (k : Nat) (p : List Byte) : Except DecodeError Instr :=
  match k with
  | 0 => row kB64F (fun x => .dxt1 x.1 x.2.1 x.2.2) p
  | 1 => row kB64F (fun x => .dxt1Rgb x.1 x.2.1 x.2.2) p
  | 2 => row kB128 (fun x => .dxt3 x.1 x.2) p
  | 3 => row kB128 (fun x => .dxt5 x.1 x.2) p
  | 4 => row kB64F (fun x => .bc4 x.1 x.2.1 x.2.2) p
  | 5 => row kB128F (fun x => .bc5 x.1 x.2.1 x.2.2) p
  | _ => .error .unknownMember

/-- BC6H blocks. -/
def decodeBc6h (k : Nat) (p : List Byte) : Except DecodeError Instr :=
  match k with
  | 0 => row kB128F (fun x => .bc6h x.1 x.2.1 x.2.2) p
  | 1 => row kB128F (fun x => .bc6hMode0 x.1 x.2.1 x.2.2) p
  | 2 => row kB128F (fun x => .bc6hMode1 x.1 x.2.1 x.2.2) p
  | 3 => row kB128F (fun x => .bc6hMode2 x.1 x.2.1 x.2.2) p
  | 4 => row kB128F (fun x => .bc6hMode3 x.1 x.2.1 x.2.2) p
  | 5 => row kB128F (fun x => .bc6hMode4 x.1 x.2.1 x.2.2) p
  | 6 => row kB128F (fun x => .bc6hMode5 x.1 x.2.1 x.2.2) p
  | 7 => row kB128F (fun x => .bc6hMode6 x.1 x.2.1 x.2.2) p
  | 8 => row kB128F (fun x => .bc6hMode7 x.1 x.2.1 x.2.2) p
  | 9 => row kB128F (fun x => .bc6hMode8 x.1 x.2.1 x.2.2) p
  | 10 => row kB128F (fun x => .bc6hMode9 x.1 x.2.1 x.2.2) p
  | 11 => row kB128F (fun x => .bc6hMode10 x.1 x.2.1 x.2.2) p
  | 12 => row kB128F (fun x => .bc6hMode11 x.1 x.2.1 x.2.2) p
  | 13 => row kB128F (fun x => .bc6hMode12 x.1 x.2.1 x.2.2) p
  | 14 => row kB128F (fun x => .bc6hMode13 x.1 x.2.1 x.2.2) p
  | 15 => row kB128F (fun x => .bc6hUndef10011 x.1 x.2.1 x.2.2) p
  | 16 => row kB128F (fun x => .bc6hUndef10111 x.1 x.2.1 x.2.2) p
  | 17 => row kB128F (fun x => .bc6hUndef11011 x.1 x.2.1 x.2.2) p
  | 18 => row kB128F (fun x => .bc6hUndef11111 x.1 x.2.1 x.2.2) p
  | _ => .error .unknownMember

/-- BC7 blocks. -/
def decodeBc7 (k : Nat) (p : List Byte) : Except DecodeError Instr :=
  match k with
  | 0 => row kB128F (fun x => .bc7 x.1 x.2.1 x.2.2) p
  | 1 => row kB128F (fun x => .bc7Mode0 x.1 x.2.1 x.2.2) p
  | 2 => row kB128F (fun x => .bc7Mode1 x.1 x.2.1 x.2.2) p
  | 3 => row kB128F (fun x => .bc7Mode2 x.1 x.2.1 x.2.2) p
  | 4 => row kB128F (fun x => .bc7Mode3 x.1 x.2.1 x.2.2) p
  | 5 => row kB128F (fun x => .bc7Mode4 x.1 x.2.1 x.2.2) p
  | 6 => row kB128F (fun x => .bc7Mode5 x.1 x.2.1 x.2.2) p
  | 7 => row kB128F (fun x => .bc7Mode6 x.1 x.2.1 x.2.2) p
  | 8 => row kB128F (fun x => .bc7Mode7 x.1 x.2.1 x.2.2) p
  | 9 => row kB128F (fun x => .bc7Undef x.1 x.2.1 x.2.2) p
  | _ => .error .unknownMember

/-- ASTC blocks and files. -/
def decodeAstc (k : Nat) (p : List Byte) : Except DecodeError Instr :=
  match k with
  | 0 => row kAstc (fun x => .astc x.1 x.2.1 x.2.2.1 x.2.2.2.1 x.2.2.2.2) p
  | 1 => row kAstcHead (fun x => .astcHeader x.1 x.2.1 x.2.2) p
  | _ => .error .unknownMember

/-- Surface layout. -/
def decodeLayout (k : Nat) (p : List Byte) : Except DecodeError Instr :=
  match k with
  | 0 => row kTile (fun x => .bufTyped x.1 x.2.1 x.2.2.1 x.2.2.2) p
  | 1 => row kRaw (fun x => .bufRaw x.1 x.2) p
  | 2 => row kTile (fun x => .bufStructured x.1 x.2.1 x.2.2.1 x.2.2.2) p
  | 3 => row cSurf1D (fun x => .surf1D x) p
  | 4 => row cSurf2D (fun x => .surf2D x) p
  | 5 => row kMcs (fun x => .mcsDecode x.1 x.2.1 x.2.2) p
  | 6 => row kQuilt (fun x => .surfQuilt x.1 x.2.1 x.2.2.1 x.2.2.2.1 x.2.2.2.2) p
  | 7 => row kCube (fun x => .surfCube x.1 x.2) p
  | 8 => row cSurf2D (fun x => .surf3D x) p
  | 9 => row cSurfPad (fun x => .surfPad x) p
  | _ => .error .unknownMember

/-! ### The bare page -/

/-- The atomic of the opcode `1100_kkkk` (R334). -/
def atomicRow (k : Nat) (addr : BitVec 64) : Instr :=
  match k with
  | 0 => .pageUpdate0000 addr
  | 1 => .pageUpdate0001 addr
  | 2 => .pageUpdate0010 addr
  | 3 => .pageUpdate0011 addr
  | 4 => .pageUpdate0100 addr
  | 5 => .pageUpdate0101 addr
  | 6 => .pageUpdate0110 addr
  | 7 => .pageUpdate0111 addr
  | 8 => .pageUpdate1000 addr
  | 9 => .pageUpdate1001 addr
  | 10 => .pageUpdate1010 addr
  | 11 => .pageUpdate1011 addr
  | 12 => .pageUpdate1100 addr
  | 13 => .pageUpdate1101 addr
  | 14 => .pageUpdate1110 addr
  | _ => .pageUpdate1111 addr

/-- The row a texture block names by its mode bits alone. The format, which the spec selects elsewhere (R330(d)), is
not in the block, so one value can match rows of several formats; the row whose printed value is the low byte comes
first, BC6H before BC7, and then the row whose mode bits match (log entry 1). -/
def bareBlock (v : BitVec 128) : Instr :=
  let n : Pos := { row := 0, col := 0 }
  match bits v 7 0 with
  | 0 => .bc6hMode0 v n false
  | 1 => .bc6hMode1 v n false
  | 2 => .bc6hMode2 v n false
  | 3 => .bc6hMode10 v n false
  | 4 => .bc7Mode2 v n false
  | 5 => .bc6hMode1 v n false
  | 6 => .bc6hMode3 v n false
  | 7 => .bc6hMode11 v n false
  | 8 => .bc7Mode3 v n false
  | 9 => .bc6hMode1 v n false
  | 10 => .bc6hMode4 v n false
  | 11 => .bc6hMode12 v n false
  | 12 => .bc6hMode0 v n false
  | 13 => .bc6hMode1 v n false
  | 14 => .bc6hMode5 v n false
  | 15 => .bc6hMode13 v n false
  | 16 => .bc7Mode4 v n false
  | 17 => .bc6hMode1 v n false
  | 18 => .bc6hMode6 v n false
  | 19 => .bc6hUndef10011 v n false
  | 20 => .bc6hMode0 v n false
  | 21 => .bc6hMode1 v n false
  | 22 => .bc6hMode7 v n false
  | 23 => .bc6hUndef10111 v n false
  | 24 => .bc6hMode0 v n false
  | 25 => .bc6hMode1 v n false
  | 26 => .bc6hMode8 v n false
  | 27 => .bc6hUndef11011 v n false
  | 28 => .bc6hMode0 v n false
  | 29 => .bc6hMode1 v n false
  | 30 => .bc6hMode9 v n false
  | 31 => .bc6hUndef11111 v n false
  | _ =>
    if bit v 0 then .bc7Mode0 v n false
    else if bit v 1 then .bc7Mode1 v n false
    else if bit v 2 then .bc7Mode2 v n false
    else if bit v 3 then .bc7Mode3 v n false
    else if bit v 4 then .bc7Mode4 v n false
    else if bit v 5 then .bc7Mode5 v n false
    else if bit v 6 then .bc7Mode6 v n false
    else .bc7Mode7 v n false

/-- The bare page: an opcode byte and its address, or a block. -/
def decodeBare (p : List Byte) : Except DecodeError Instr :=
  match p with
  | [] => .error .badField
  | b :: rest =>
    if b.toNat / 16 = 12 then row (.bv 64 8) (atomicRow (b.toNat % 16)) rest
    else row (.bv 128 16) bareBlock (b :: rest)

/-! ### The decoder -/

/-- The operation of a family and a member number. -/
def decodeMember (f k : Nat) (p : List Byte) : Except DecodeError Instr :=
  match f with
  | 0 => if k = 0 then decodeBare p else .error .unknownMember
  | 1 => decodeTiling k p
  | 2 => decodeWalk k p
  | 3 => decodeUpdate k p
  | 4 => decodeFormat k p
  | 5 => decodeEtc k p
  | 6 => decodeFxt1 k p
  | 7 => decodeDxt k p
  | 8 => decodeBc6h k p
  | 9 => decodeBc7 k p
  | 10 => decodeAstc k p
  | 11 => decodeLayout k p
  | _ => .error .unknownFamily

/-- The operation that bytes name. -/
def decode (bs : List Byte) : Except DecodeError Instr :=
  if bs.length = 64 then decodeMember (bs.getD 63 0).toNat (bs.getD 62 0).toNat (bs.take 62) else .error .notRecord

/-! ### The encoder -/

/-- A record: operands, zeros, member, family. -/
def record (f k : Byte) (p : List Byte) : List Byte := p ++ List.replicate (62 - p.length) 0 ++ [k, f]

/-- The record of an operation. -/
def encode (i : Instr) : List Byte :=
  match i with
  | .tileLinear a b c d => record 1 0 (kTile.enc (a, b, c, d))
  | .tileX a b c d => record 1 1 (kTile.enc (a, b, c, d))
  | .tileY a b c d => record 1 2 (kTile.enc (a, b, c, d))
  | .tileW a b c d => record 1 3 (kTile.enc (a, b, c, d))
  | .tileFence a b c d => record 1 4 (kFence.enc (a, b, c, d))
  | .tileYs64 a b => record 1 5 (kXY.enc (a, b))
  | .tileYs16 a b => record 1 6 (kXY.enc (a, b))
  | .tileYs8 a b => record 1 7 (kXY.enc (a, b))
  | .tileYsMsaa2_64 a b c => record 1 8 (kXYS.enc (a, b, c))
  | .tileYsMsaa2_16 a b c => record 1 9 (kXYS.enc (a, b, c))
  | .tileYsMsaa2_8 a b c => record 1 10 (kXYS.enc (a, b, c))
  | .tileYsMsaa4_64 a b c => record 1 11 (kXYS.enc (a, b, c))
  | .tileYsMsaa4_16 a b c => record 1 12 (kXYS.enc (a, b, c))
  | .tileYsMsaa4_8 a b c => record 1 13 (kXYS.enc (a, b, c))
  | .tileYsMsaa8_64 a b c => record 1 14 (kXYS.enc (a, b, c))
  | .tileYsMsaa8_16 a b c => record 1 15 (kXYS.enc (a, b, c))
  | .tileYsMsaa8_8 a b c => record 1 16 (kXYS.enc (a, b, c))
  | .tileYsMsaa16_64 a b c => record 1 17 (kXYS.enc (a, b, c))
  | .tileYsMsaa16_16 a b c => record 1 18 (kXYS.enc (a, b, c))
  | .tileYsMsaa16_8 a b c => record 1 19 (kXYS.enc (a, b, c))
  | .tileYf64 a b => record 1 20 (kXY.enc (a, b))
  | .tileYf16 a b => record 1 21 (kXY.enc (a, b))
  | .tileYf8 a b => record 1 22 (kXY.enc (a, b))
  | .trttWalk a => record 2 0 ((Codec.bv 64 8).enc a)
  | .ggttWalk a b c => record 2 1 (kGgtt.enc (a, b, c))
  | .ppgtt32Walk a b c d e => record 2 2 (kWalk.enc (a, b, c, d, e))
  | .ppgtt48Walk a b c d e => record 2 3 (kWalk.enc (a, b, c, d, e))
  | .ia32eWalk a b c d e => record 2 4 (kWalk.enc (a, b, c, d, e))
  | .tlbInvalidate a b => record 2 5 (kInv.enc (a, b))
  | .hdcPageReq a => record 2 6 (cPageReq.enc a)
  | .hdcPageResp a => record 2 7 (cPageResp.enc a)
  | .hdcTlbInv a => record 2 8 (cTlbInv.enc a)
  | .aUpdate000 a => record 3 0 ((Codec.bv 64 8).enc a)
  | .aUpdate001 a => record 3 1 ((Codec.bv 64 8).enc a)
  | .aUpdate010 a => record 3 2 ((Codec.bv 64 8).enc a)
  | .aUpdate011 a => record 3 3 ((Codec.bv 64 8).enc a)
  | .aUpdate100 a => record 3 4 ((Codec.bv 64 8).enc a)
  | .adUpdate101 a => record 3 5 ((Codec.bv 64 8).enc a)
  | .adUpdate110 a => record 3 6 ((Codec.bv 64 8).enc a)
  | .adUpdate111 a => record 3 7 ((Codec.bv 64 8).enc a)
  | .fmtR1 a b => record 4 0 (kR1.enc (a, b))
  | .fmtP4A4 a => record 4 1 ((Codec.bv 8 1).enc a)
  | .fmtA4P4 a => record 4 2 ((Codec.bv 8 1).enc a)
  | .fmtP8A8 a => record 4 3 ((Codec.bv 16 2).enc a)
  | .fmtA8P8 a => record 4 4 ((Codec.bv 16 2).enc a)
  | .fmtP8 a => record 4 5 ((Codec.bv 8 1).enc a)
  | .fmtP2 a b => record 4 6 (kP2.enc (a, b))
  | .fmtYuv422 a b => record 4 7 (kYuv.enc (a, b))
  | .etc1 a b => record 5 0 (kB64.enc (a, b))
  | .etc2 a b c => record 5 1 (kB64F.enc (a, b, c))
  | .eacR11 a b c => record 5 2 (kB64F.enc (a, b, c))
  | .etc2Pta a b c => record 5 3 (kB64F.enc (a, b, c))
  | .etc2EacRgba8 a b c => record 5 4 (kB128F.enc (a, b, c))
  | .eacR8 a b => record 5 5 (kB64.enc (a, b))
  | .eacRg11 a b c => record 5 6 (kB128F.enc (a, b, c))
  | .fxt1 a b => record 6 0 (kFxt.enc (a, b))
  | .fxt1Hi a b => record 6 1 (kFxt.enc (a, b))
  | .fxt1Chroma a b => record 6 2 (kFxt.enc (a, b))
  | .fxt1Mixed a b => record 6 3 (kFxt.enc (a, b))
  | .fxt1Alpha a b => record 6 4 (kFxt.enc (a, b))
  | .dxt1 a b c => record 7 0 (kB64F.enc (a, b, c))
  | .dxt1Rgb a b c => record 7 1 (kB64F.enc (a, b, c))
  | .dxt3 a b => record 7 2 (kB128.enc (a, b))
  | .dxt5 a b => record 7 3 (kB128.enc (a, b))
  | .bc4 a b c => record 7 4 (kB64F.enc (a, b, c))
  | .bc5 a b c => record 7 5 (kB128F.enc (a, b, c))
  | .bc6h a b c => record 8 0 (kB128F.enc (a, b, c))
  | .bc6hMode0 a b c => record 8 1 (kB128F.enc (a, b, c))
  | .bc6hMode1 a b c => record 8 2 (kB128F.enc (a, b, c))
  | .bc6hMode2 a b c => record 8 3 (kB128F.enc (a, b, c))
  | .bc6hMode3 a b c => record 8 4 (kB128F.enc (a, b, c))
  | .bc6hMode4 a b c => record 8 5 (kB128F.enc (a, b, c))
  | .bc6hMode5 a b c => record 8 6 (kB128F.enc (a, b, c))
  | .bc6hMode6 a b c => record 8 7 (kB128F.enc (a, b, c))
  | .bc6hMode7 a b c => record 8 8 (kB128F.enc (a, b, c))
  | .bc6hMode8 a b c => record 8 9 (kB128F.enc (a, b, c))
  | .bc6hMode9 a b c => record 8 10 (kB128F.enc (a, b, c))
  | .bc6hMode10 a b c => record 8 11 (kB128F.enc (a, b, c))
  | .bc6hMode11 a b c => record 8 12 (kB128F.enc (a, b, c))
  | .bc6hMode12 a b c => record 8 13 (kB128F.enc (a, b, c))
  | .bc6hMode13 a b c => record 8 14 (kB128F.enc (a, b, c))
  | .bc6hUndef10011 a b c => record 8 15 (kB128F.enc (a, b, c))
  | .bc6hUndef10111 a b c => record 8 16 (kB128F.enc (a, b, c))
  | .bc6hUndef11011 a b c => record 8 17 (kB128F.enc (a, b, c))
  | .bc6hUndef11111 a b c => record 8 18 (kB128F.enc (a, b, c))
  | .bc7 a b c => record 9 0 (kB128F.enc (a, b, c))
  | .bc7Mode0 a b c => record 9 1 (kB128F.enc (a, b, c))
  | .bc7Mode1 a b c => record 9 2 (kB128F.enc (a, b, c))
  | .bc7Mode2 a b c => record 9 3 (kB128F.enc (a, b, c))
  | .bc7Mode3 a b c => record 9 4 (kB128F.enc (a, b, c))
  | .bc7Mode4 a b c => record 9 5 (kB128F.enc (a, b, c))
  | .bc7Mode5 a b c => record 9 6 (kB128F.enc (a, b, c))
  | .bc7Mode6 a b c => record 9 7 (kB128F.enc (a, b, c))
  | .bc7Mode7 a b c => record 9 8 (kB128F.enc (a, b, c))
  | .bc7Undef a b c => record 9 9 (kB128F.enc (a, b, c))
  | .astc a b c d e => record 10 0 (kAstc.enc (a, b, c, d, e))
  | .astcHeader a b c => record 10 1 (kAstcHead.enc (a, b, c))
  | .bufTyped a b c d => record 11 0 (kTile.enc (a, b, c, d))
  | .bufRaw a b => record 11 1 (kRaw.enc (a, b))
  | .bufStructured a b c d => record 11 2 (kTile.enc (a, b, c, d))
  | .surf1D a => record 11 3 (cSurf1D.enc a)
  | .surf2D a => record 11 4 (cSurf2D.enc a)
  | .mcsDecode a b c => record 11 5 (kMcs.enc (a, b, c))
  | .surfQuilt a b c d e => record 11 6 (kQuilt.enc (a, b, c, d, e))
  | .surfCube a b => record 11 7 (kCube.enc (a, b))
  | .surf3D a => record 11 8 (cSurf2D.enc a)
  | .surfPad a => record 11 9 (cSurfPad.enc a)
  | .pageUpdate0000 a => record 0 0 (192 :: (Codec.bv 64 8).enc a)
  | .pageUpdate0001 a => record 0 0 (193 :: (Codec.bv 64 8).enc a)
  | .pageUpdate0010 a => record 0 0 (194 :: (Codec.bv 64 8).enc a)
  | .pageUpdate0011 a => record 0 0 (195 :: (Codec.bv 64 8).enc a)
  | .pageUpdate0100 a => record 0 0 (196 :: (Codec.bv 64 8).enc a)
  | .pageUpdate0101 a => record 0 0 (197 :: (Codec.bv 64 8).enc a)
  | .pageUpdate0110 a => record 0 0 (198 :: (Codec.bv 64 8).enc a)
  | .pageUpdate0111 a => record 0 0 (199 :: (Codec.bv 64 8).enc a)
  | .pageUpdate1000 a => record 0 0 (200 :: (Codec.bv 64 8).enc a)
  | .pageUpdate1001 a => record 0 0 (201 :: (Codec.bv 64 8).enc a)
  | .pageUpdate1010 a => record 0 0 (202 :: (Codec.bv 64 8).enc a)
  | .pageUpdate1011 a => record 0 0 (203 :: (Codec.bv 64 8).enc a)
  | .pageUpdate1100 a => record 0 0 (204 :: (Codec.bv 64 8).enc a)
  | .pageUpdate1101 a => record 0 0 (205 :: (Codec.bv 64 8).enc a)
  | .pageUpdate1110 a => record 0 0 (206 :: (Codec.bv 64 8).enc a)
  | .pageUpdate1111 a => record 0 0 (207 :: (Codec.bv 64 8).enc a)

/-- The instruction the decoder reads from the bits of an instruction word; every bit above is zero. -/
def decodeTableWord (nbits w : Nat) : Option Instr :=
  match decode (leBytes 64 (w % 2 ^ nbits)) with
  | .ok i => some i
  | .error _ => none

end Sys2Proof
end

