-- ==== Sys2Proof/Machine/Coherence.lean ====
section
/-! DEFINITION. What an agent sees of another agent's writes (spec/20_memory.md R280 to R294,
spec/70_reset_and_hazards.md R1404, R268): memory holds the newest value of every byte, `State.oldBytes` the values
that a cache of the GPU, or a write back that has not happened, may still stand for. Paging structures are read and
updated coherently (R280(c), R290) and do not come here. -/
namespace Sys2Proof.Machine

/-- The cache that serves a GPU access; an access of no engine has none. -/
def cacheOf (a : MemAccess) : Agent :=
  match a.engine with
  | some e => .gpu { engine := e, client := a.client }
  | none => if a.display then .display else .host

/-- The line goes to LLC (R250, R280). -/
def MemControls.inLlc (m : MemControls) : Bool :=
  match m.target with
  | .noCache => false
  | .llc => true
  | .llcEllc => true
  | .ellcOnly => false

/-- WB or WT with LLC as target, or a snooped access (R280); a read of WP memory is WB, a write WC (R745). -/
def MemControls.llcCoherent (m : MemControls) (write : Bool) : Bool :=
  m.snoop || ((m.type.ofAccess write == .wb || m.type.ofAccess write == .wt) && m.inLlc)

/-- A coherent data-port access of a context with the deeper level of coherency (R286): the host's snoops reach the L3. -/
def deepCoherent (s : State) (a : MemAccess) : Bool :=
  a.client == .hdcCoherent
    && ((a.engine.bind (fun e => (s.eng e).ctx)).map (fun c => c.advanced && c.deepCoherency)).getD false

/-- Whether a cache of the GPU that nobody snoops may hold the line of an access (R280(b)): of a data-port access the L3, if
it caches the line and is not coherent itself (R286); of another client its own cache. A cycle performed as
uncacheable with a fence leaves no line anywhere (R252, R282 item 6). -/
def gpuCached (s : State) (a : MemAccess) (m : MemControls) : Bool :=
  a.engine.isSome && !m.fence && (if a.client.isHdc then m.l3 && !deepCoherent s a else true)

/-- Whether an access of the GPU acts on what the host's caches hold (R280): through LLC, by a snoop, as a coherent access
of the deeper level (R286), or as the coherent cycle that a fence goes with (R252). -/
def snoopsHost (s : State) (a : MemAccess) (m : MemControls) : Bool :=
  m.llcCoherent (isWrite a.op.acc) || deepCoherent s a || m.fence

/-- Lines that a cache may hold from now on (R280(b)). -/
def noteLines (s : State) (w : Agent) (a n : Nat) : State :=
  { s with
    cachedLines := ((List.range ((a + n + 63) / 64 - a / 64)).map (fun k => (w, a / 64 + k))).foldl
      (fun l p => if l.contains p then l else p :: l) s.cachedLines }

/-- How a reader gets at memory: who it is, whether no cache of its own stands between (R280(a)), and whether it snoops the
host's caches. -/
structure Reader where
  agent : Agent
  coherent : Bool
  snoops : Bool
  deriving DecidableEq, Repr

/-- The host, and accesses through the aperture. -/
def Reader.host : Reader := { agent := .host, coherent := true, snoops := true }

/-- A GPU access through a cache that nobody snoops may leave its lines there (R280(b)). -/
def noteCached (s : State) (r : Reader) (a n : Nat) : State :=
  match r.agent with
  | .host => s
  | .display => s
  | .walker => s
  | .gpu _ => if r.coherent then s else noteLines s r.agent a n

/-- Whether the writer is the blitter. -/
def Agent.isBlitter (w : Agent) : Bool :=
  match w with
  | .gpu c => c.engine == .bcs
  | .host => false
  | .display => false
  | .walker => false

/-- An agent is a cache of this engine. -/
def Agent.ofEngine (w : Agent) (e : Engine) : Bool :=
  match w with
  | .gpu c => c.engine == e
  | .host => false
  | .display => false
  | .walker => false

/-- A write back that has not happened hides a GPU's write from everybody else, but a blitter's write is hidden from the
sampler only until the texture cache is invalidated (R1404); it hides a host's write from accesses that do not snoop. -/
def OldBytes.heldFrom (o : OldBytes) (r : Reader) : Bool :=
  match o.writer with
  | .host => o.held && !r.snoops
  | .display => false
  | .walker => false
  | .gpu _ => o.held && !(o.writer.isBlitter && (match r.agent with
      | .gpu c => c.client == .sampler
      | .host => false
      | .display => false
      | .walker => false))

/-- Whether a GPU cache may stand for the bytes from before this write: a cache of the engine, not the writer, had kept
the line (R280(b); the L3 is shared by an engine's clients), or it is the texture cache and the writer the blitter
(R1404). -/
def OldBytes.keptBy (o : OldBytes) (c : CacheId) : Bool :=
  !o.fresh.contains (.gpu c) &&
    (o.cachedBy.any (fun k => k.ofEngine c.engine && o.writer != k) || (o.writer.isBlitter && c.client == .sampler))

/-- The host has the line in its caches, and the write did not snoop them (R280(b)). -/
def OldBytes.keptByHost (o : OldBytes) : Bool :=
  o.unsnooped && o.cachedBy.contains .host && !o.fresh.contains .host

/-- Whether a reader may still get the bytes from before this write. -/
def OldBytes.mayHide (o : OldBytes) (r : Reader) : Bool :=
  match r.agent with
  | .host => o.heldFrom r || o.keptByHost
  | .display => o.held || o.inLlc
  | .walker => o.heldFrom r
  | .gpu c => o.writer != r.agent && (o.heldFrom r || (!r.coherent && o.keptBy c))

/-- The write covers a byte. -/
def OldBytes.covers (o : OldBytes) (x : Nat) : Bool := decide (o.addr ≤ x) && decide (x < o.addr + o.data.length)

/-- One byte with the knowledge whether a newer write to it has been seen; going past a write that is hidden takes
the byte from before it. -/
def lookBack (o : OldBytes) (hidden : Bool) : Nat → List (Byte × Bool) → List (Byte × Bool)
  | _, [] => []
  | x, (b, seen) :: bs =>
    (if seen || !o.covers x then (b, seen) else if hidden then (o.data.getD (x - o.addr) b, false) else (b, true)) ::
      lookBack o hidden (x + 1) bs

/-- The bytes of one line as a reader sees them: each newer write of the line is seen or hidden as a whole. -/
def viewLine (r : Reader) (x : Nat) : List OldBytes → List (Byte × Bool) → State →
    List (Byte × Bool) × State
  | [], bs, s => (bs, s)
  | o :: os, bs, s =>
    if (List.range bs.length).any (fun k => o.covers (x + k)) then
      if o.mayHide r then
        let ch := freeChoice s
        viewLine r x os (lookBack o ch.1 x bs) ch.2
      else viewLine r x os (lookBack o false x bs) s
    else viewLine r x os bs s

/-- Every line of a read. -/
def viewLines (r : Reader) : List (Nat × List Byte) → State → List Byte × State
  | [], s => ([], s)
  | (x, d) :: ps, s =>
    let v := viewLine r x s.oldBytes (d.map (fun b => (b, false))) s
    let w := viewLines r ps v.2
    (v.1.map Prod.fst ++ w.1, w.2)

/-- Read bytes as an agent sees them (R280, R294, R1404). -/
def loadSeen (s : State) (r : Reader) (a n : Nat) : List Byte × State :=
  viewLines r (linePieces n a (Memory.readBytes s.mem a n)) s

/-! ### The flush and invalidate commands of other volumes (R280(b), R292) -/

/-- A cache's contents are written back; another cache may have fetched the line before that. -/
def OldBytes.writtenBack (s : State) (o : OldBytes) : OldBytes :=
  { o with held := false, cachedBy := o.cachedBy ++ cachers s (o.addr / 64) }

/-- Write one cache back. -/
def flushCache (s : State) (c : CacheId) : State :=
  { s with
    oldBytes := s.oldBytes.map (fun o => if o.held && o.writer == .gpu c then o.writtenBack s else o) }

/-- A cache drops its contents: it then fetches whatever is not still held elsewhere. -/
def invalidateCache (s : State) (c : CacheId) : State :=
  { s with
    oldBytes := s.oldBytes.map (fun o =>
      if o.heldFrom { agent := .gpu c, coherent := false, snoops := true } then o
      else { o with fresh := .gpu c :: o.fresh })
    cachedLines := s.cachedLines.filter (fun p => p.1 != .gpu c) }

/-- LLC is written back to memory (R268): what a GPU cache still holds goes to LLC later. -/
def flushLlc (s : State) : State :=
  { s with oldBytes := s.oldBytes.map (fun o => if o.held then o else { o with inLlc := false }) }

/-- The host writes its caches back and drops them, as unsnooped types need (R280(b)). -/
def hostFlush (s : State) : State :=
  { s with
    oldBytes := s.oldBytes.map (fun o =>
      if o.writer == .host then o.writtenBack s else if o.held then o else { o with fresh := .host :: o.fresh })
    cachedLines := s.cachedLines.filter (fun p => p.1 != .host) }

/-- Every write that a GPU client has made is performed in memory (R731: GTI is empty). -/
def performHeld (s : State) : State :=
  { s with
    oldBytes := s.oldBytes.map (fun o => if o.held && o.writer != .host then o.writtenBack s else o) }

end Sys2Proof.Machine
end

