-- ==== Sys2Proof/Machine/Walks.lean ====
section
/-! DEFINITION. The four page walks (spec/42_page_walks.md R572, R574, R576, R578): from a graphics virtual address
to a physical address, a null page, or a fault. `WalkSrc` says whether remembered paging
entries may stand for memory. -/
namespace Sys2Proof.Machine

/-- Rights and flags of the leaf, for the TLB (R710). -/
structure LeafAttr where
  rw : Bool
  xd : Bool
  dirty : Bool
  deriving DecidableEq, Repr

/-- How a walk ends. -/
inductive WalkRes where
  | ok (x : Xlate) (t : LeafAttr)
  /-- `us`: the privilege that lacks is that of U/S. -/
  | fault (c : FaultCode) (l : Level) (us : Bool)
  | error (k : ErrorKind)
  | refuse (r : Refusal)
  deriving DecidableEq, Repr

/-- A null completion (R526). -/
def nullRes : WalkRes := .ok .nullPage { rw := false, xd := false, dirty := false }

/-! ### Global GTT -/

/-- `GGTT.WALK` (R572). The D bit answered is 1 (log entry 32). -/
def ggttWalk (s : State) (src : WalkSrc) (who : Option Engine) (va : Nat) : WalkRes × State :=
  if va ≥ 2 ^ 32 then (.refuse .vaOutOfRange, s)
  else if va / 4096 ≥ s.par.gsmSize / 8 then (.refuse .ggttBeyondGsm, s)
  else
    let r := readEntryPlain s src who (s.par.gsmBase + 8 * (va / 4096)) .leaf
    if !entryP r.1 then (.fault .notPresent .gtt false, r.2)
    else (.ok (.phys (addrField s.par.haw r.1 12 + va % 4096) .size4K false false false)
      { rw := true, xd := false, dirty := true }, r.2)

/-! ### Legacy contexts -/

/-- The end of a legacy walk at a leaf entry (R574, R576): null page, write check, address. A legacy leaf has no dirty
flag: the D bit answered for it is 1 (log entry 32). -/
def legacyLeaf (haw : Nat) (e : QWord) (size : PageSize) (usePat : Bool) (va : Nat) (a : Acc) (l : Level) : WalkRes :=
  if entryNull e then nullRes
  else match legacyWriteCheck e a with
    | .noFault => .ok (.phys (addrField haw e size.log + va % 2 ^ size.log) size (usePat && entryPS e) (entryPCD e)
        (entryPWT e)) { rw := entryRW e, xd := false, dirty := true }
    | .notPresent => .fault .notPresent l false
    | .privilege => .fault .privilege l false
    | .writePermission => .fault .writePermission l false

/-- The page-table level of a legacy walk, 32-bit or 48-bit (R574, R576, R580). -/
def legacyPt (s : State) (src : WalkSrc) (who : Option Engine) (c : Ctx) (pde : QWord) (va : Nat) (a : Acc) :
    WalkRes × State :=
  let ptb := addrField s.par.haw pde 12
  if c.enable64K s.par && entryIPS pde then
    let r := readEntryPlain s src who (ptb + pte64KOffset va) .leaf
    if !entryP r.1 then (.fault .notPresent .pt false, r.2)
    else (legacyLeaf s.par.haw r.1 .size64K true va a .pt, r.2)
  else
    let r := readEntryPlain s src who (ptb + 8 * nbits va 20 12) .leaf
    if !entryP r.1 then (.fault .notPresent .pt false, r.2)
    else (legacyLeaf s.par.haw r.1 .size4K true va a .pt, r.2)

/-- `PPGTT32.WALK` (R574). -/
def ppgtt32Walk (s : State) (src : WalkSrc) (who : Option Engine) (c : Ctx) (va : Nat) (a : Acc) : WalkRes × State :=
  if va ≥ 2 ^ 32 then (.refuse .vaOutOfRange, s)
  else
    let pdp := c.pdp (nbits va 31 30)
    let r := readEntryPlain s src who (addrField s.par.haw pdp 12 + 8 * nbits va 29 21) .pointer
    if !entryP r.1 then (.fault .notPresent .pd false, r.2)
    else legacyPt r.2 src who c r.1 va a

/-- The page-directory level of a legacy 48-bit walk (R576). -/
def legacy48Pd (s : State) (src : WalkSrc) (who : Option Engine) (c : Ctx) (e3 : QWord) (va : Nat) (a : Acc) :
    WalkRes × State :=
  let r := readEntryPlain s src who (addrField s.par.haw e3 12 + 8 * nbits va 29 21) .either
  if !entryP r.1 then (.fault .notPresent .pd false, r.2)
  else if entryPS r.1 then
    if s.par.gttCacheEnable then (.refuse .gttCacheEnabled, r.2)
    else (legacyLeaf s.par.haw r.1 .size2M false va a .pd, r.2)
  else legacyPt r.2 src who c r.1 va a

/-- The page-directory-pointer level of a legacy 48-bit walk (R576). -/
def legacy48Pdp (s : State) (src : WalkSrc) (who : Option Engine) (c : Ctx) (e4 : QWord) (va : Nat) (a : Acc) :
    WalkRes × State :=
  let r := readEntryPlain s src who (addrField s.par.haw e4 12 + 8 * nbits va 38 30) .either
  if !entryP r.1 then (.fault .notPresent .pdp false, r.2)
  else if entryPS r.1 then
    if s.par.gttCacheEnable then (.refuse .gttCacheEnabled, r.2)
    else (legacyLeaf s.par.haw r.1 .size1G false va a .pdp, r.2)
  else legacy48Pd r.2 src who c r.1 va a

/-- `PPGTT48.WALK` (R576). -/
def ppgtt48Walk (s : State) (src : WalkSrc) (who : Option Engine) (c : Ctx) (va : Nat) (a : Acc) : WalkRes × State :=
  if va ≥ 2 ^ 48 then (.refuse .vaOutOfRange, s)
  else
    let r := readEntryPlain s src who (addrField s.par.haw c.pml4 12 + 8 * nbits va 47 39) .pml4
    if !entryP r.1 then (.fault .notPresent .pml4 false, r.2)
    else legacy48Pdp r.2 src who c r.1 va a

/-! ### Advanced contexts -/

/-- "51:HAW Reserved" (R578). -/
def reservedHaw (haw : Nat) : Nat := maskOf haw 51

/-- The end of an advanced walk at its leaf (R578, R600 `RightsFinal`). -/
def iaLeaf (haw : Nat) (q : RightsCtl) (r : Rights) (e : QWord) (size : PageSize) (pat : Bool) (va : Nat)
    (l : Level) : WalkRes :=
  match rightsFinal q r with
  | .noFault => .ok (.phys (addrField haw e size.log + va % 2 ^ size.log) size pat (entryPCD e) (entryPWT e))
      { rw := r.rw, xd := r.xd, dirty := entryD e }
  | .notPresent => .fault .notPresent l false
  | .privilege => .fault .privilege l false
  | .writePermission => .fault .writePermission l false

/-- The code of `Check` is that of U/S (R591, R713). -/
def usFault (q : RightsCtl) (k : FaultCode × Rights) : Bool := k.1 == .privilege && !q.supervisor && !k.2.us

/-- The PAT index of the memory holding the table an entry points to (R290). For the PML4 table there is no parent entry;
bits 4:3 of the PML4 pointer stand for its PCD and PWT (log entry 32). -/
def parentIndex (e : QWord) : Nat := patIndex false (entryPCD e) (entryPWT e)

/-- The page-table level (R578). -/
def iaPt (s : State) (src : WalkSrc) (who : Option Engine) (c : Ctx) (q : RightsCtl) (r : Rights) (e2 : QWord)
    (va : Nat) : WalkRes × State :=
  let haw := s.par.haw
  let big := c.enable64K s.par && entryIPS e2
  let addr := addrField haw e2 12 + (if big then pte64KOffset va else 8 * nbits va 20 12)
  match readEntryIa s src who c q (parentIndex e2) addr .leaf with
  | (none, s1) => (.error .adUpdateNonWB, s1)
  | (some e1, s1) =>
    let k := checkEntry q r (reservedHaw haw ||| (if big then maskOf 12 15 else 0)) e1
    if k.1 ≠ .noFault then (.fault k.1 .pt (usFault q k), s1)
    else (iaLeaf haw q k.2 e1 (if big then .size64K else .size4K) (entryPS e1) va .pt, s1)

/-- The page-directory level (R578). -/
def iaPd (s : State) (src : WalkSrc) (who : Option Engine) (c : Ctx) (q : RightsCtl) (r : Rights) (e3 : QWord)
    (va : Nat) : WalkRes × State :=
  let haw := s.par.haw
  match readEntryIa s src who c q (parentIndex e3) (addrField haw e3 12 + 8 * nbits va 29 21) .either with
  | (none, s1) => (.error .adUpdateNonWB, s1)
  | (some e2, s1) =>
    if entryP e2 && entryPS e2 then
      let k := checkEntry q r (reservedHaw haw ||| maskOf 13 20) e2
      if k.1 ≠ .noFault then (.fault k.1 .pd (usFault q k), s1)
      else (iaLeaf haw q k.2 e2 .size2M (bit e2 12) va .pd, s1)
    else
      let k := checkEntry q r (reservedHaw haw) e2
      if k.1 ≠ .noFault then (.fault k.1 .pd (usFault q k), s1)
      else iaPt s1 src who c q k.2 e2 va

/-- The page-directory-pointer level (R578). -/
def iaPdp (s : State) (src : WalkSrc) (who : Option Engine) (c : Ctx) (q : RightsCtl) (r : Rights) (e4 : QWord)
    (va : Nat) : WalkRes × State :=
  let haw := s.par.haw
  match readEntryIa s src who c q (parentIndex e4) (addrField haw e4 12 + 8 * nbits va 38 30) .either with
  | (none, s1) => (.error .adUpdateNonWB, s1)
  | (some e3, s1) =>
    if entryP e3 && entryPS e3 then
      let k := checkEntry q r (reservedHaw haw ||| maskOf 13 29) e3
      if k.1 ≠ .noFault then (.fault k.1 .pdp (usFault q k), s1)
      else (iaLeaf haw q k.2 e3 .size1G (bit e3 12) va .pdp, s1)
    else
      let k := checkEntry q r (reservedHaw haw) e3
      if k.1 ≠ .noFault then (.fault k.1 .pdp (usFault q k), s1)
      else iaPd s1 src who c q k.2 e3 va

/-- `IA32E.WALK` (R578). -/
def ia32eWalk (s : State) (src : WalkSrc) (who : Option Engine) (c : Ctx) (va : Nat) (a : Acc) : WalkRes × State :=
  if va ≥ 2 ^ 48 then (.refuse .vaOutOfRange, s)
  else if s.par.gttCacheEnable then (.refuse .gttCacheEnabled, s)
  else
    let haw := s.par.haw
    let q := rightsCtl c a
    match readEntryIa s src who c q (parentIndex c.pml4) (addrField haw c.pml4 12 + 8 * nbits va 47 39) .pml4 with
    | (none, s1) => (.error .adUpdateNonWB, s1)
    | (some e4, s1) =>
      let k := checkEntry q .start (reservedHaw haw ||| maskOf 7 7) e4
      if k.1 ≠ .noFault then (.fault k.1 .pml4 (usFault q k), s1)
      else iaPdp s1 src who c q k.2 e4 va

/-- The walk of a mode (R570, R571). -/
def walkMode (s : State) (src : WalkSrc) (who : Option Engine) (c : Ctx) (m : Mode) (va : Nat) (a : Acc) :
    WalkRes × State :=
  match m with
  | .ggtt => ggttWalk s src who va
  | .legacy32 => ppgtt32Walk s src who c va a
  | .legacy48 => ppgtt48Walk s src who c va a
  | .advanced => ia32eWalk s src who c va a

/-! ### The entries a walk looks at -/

/-- The page-table entry that a page-directory entry leads to (R574, R578, R580). -/
def ptAddress (p : Params) (c : Ctx) (e2 : QWord) (va : Nat) : Nat :=
  addrField p.haw e2 12 + (if c.enable64K p && entryIPS e2 then pte64KOffset va else 8 * nbits va 20 12)

/-- The addresses of the entries that a walk through the caches looks at, from the top. -/
def walkPath (s : State) (who : Option Engine) (c : Ctx) (m : Mode) (va : Nat) : List Nat :=
  let val (a : Nat) : QWord := (findEntry (s.facts who) a).getD (memReadQ s a)
  let haw := s.par.haw
  let below (a2 : Nat) : List Nat := [a2, ptAddress s.par c (val a2) va]
  let four : List Nat :=
    let a4 := addrField haw c.pml4 12 + 8 * nbits va 47 39
    let a3 := addrField haw (val a4) 12 + 8 * nbits va 38 30
    a4 :: a3 :: below (addrField haw (val a3) 12 + 8 * nbits va 29 21)
  match m with
  | .ggtt => [s.par.gsmBase + 8 * (va / 4096)]
  | .legacy32 => below (addrField haw (c.pdp (nbits va 31 30)) 12 + 8 * nbits va 29 21)
  | .legacy48 => four
  | .advanced => four

/-- The addresses of the pointer entries of a walk, from the top: of a 4-level walk down to the entry that is a leaf. -/
def pointerPath (s : State) (who : Option Engine) (c : Ctx) (m : Mode) (va : Nat) : List Nat :=
  let val (a : Nat) : QWord := (findEntry (s.facts who) a).getD (memReadQ s a)
  let haw := s.par.haw
  let four : List Nat :=
    let a4 := addrField haw c.pml4 12 + 8 * nbits va 47 39
    let a3 := addrField haw (val a4) 12 + 8 * nbits va 38 30
    let a2 := addrField haw (val a3) 12 + 8 * nbits va 29 21
    if entryPS (val a3) then [a4] else if entryPS (val a2) then [a4, a3] else [a4, a3, a2]
  match m with
  | .ggtt => []
  | .legacy32 => [addrField haw (c.pdp (nbits va 31 30)) 12 + 8 * nbits va 29 21]
  | .legacy48 => four
  | .advanced => four

/-- The walk hits the paging-structure caches (R1316): they hold every pointer entry of it, and only the leaf is left to
read; the GTT cache holds the entry of a GGTT walk. -/
def pathHeld (s : State) (who : Option Engine) (c : Ctx) (m : Mode) (va : Nat) : Bool :=
  match m with
  | .ggtt => (findCopy s who .leaf (s.par.gsmBase + 8 * (va / 4096))).isSome
  | .legacy32 | .legacy48 | .advanced =>
    (pointerPath s who c m va).all (fun a => (findEntry (s.facts who) a).isSome)

/-- The remembered present entries of a walk that has faulted go, so that a right granted since is missed at most once
(R736). A copy in the GTT cache of an entry that was not present may stay until the next invalidation (R1401). -/
def dropPath (s : State) (who : Option Engine) (path : List Nat) : State :=
  s.setFacts who ((s.facts who).filter (fun f => match f with
    | .entry a _ => !path.contains a
    | .gttEntry a v => !entryP v || !path.contains a
    | .leaf _ _ _ => true
    | .trEntry _ _ _ => true
    | .trTile _ _ => true
    | .faulted _ _ _ _ _ => true))

/-! ### The four operations -/

/-- The fault record of a walk (R592, R1303): the address is that of the page. -/
def faultOf (who : Option Engine) (c : Option Ctx) (ggtt : Bool) (va : Nat) (a : Acc) (code : FaultCode) (l : Level)
    (us : Bool) : PageFault :=
  { code := code, level := l, va := va / 4096 * 4096, acc := a, engine := who, ggtt := ggtt, us := us
    pasid := match c with | some c => c.pasid | none => 0
    contextID := match c with | some c => c.contextID | none => 0 }

/-- A physical address a translation may give (U16, R230). -/
def physOk (p : Params) (pa n : Nat) : Bool :=
  decide (pa + n ≤ p.topOfMemory)
    && !(decide (p.gmadrBase < pa + n) && decide (pa < p.gmadrBase + p.gmadrSize))
    && !(decide (p.gttmmadrBase < pa + n) && decide (pa < p.gttmmadrBase + 0x1000000))

/-- The address of a translation is one that a translation may give. -/
def xlateOk (p : Params) (x : Xlate) : Bool :=
  match x with
  | .phys pa _ _ _ _ => physOk p pa 1
  | .nullPage => true

/-- A request waits its turn (R1312, R1316). -/
def enqueue (s : State) (w : Waiter) : State := { s with waiting := s.waiting ++ [w], out := .waits }

/-- Whether an engine's requests wait: it is hung, or a delivery is in progress (R1312, R680). -/
def engineHolds (s : State) (e : Option Engine) : Bool :=
  match e with
  | none => false
  | some e =>
    match (s.eng e).run with
    | .hung _ _ => true
    | .switching => true
    | .idle => false
    | .running => false
    | .halted _ => false

/-- No walk starts now for an engine: its requests wait, or the miss pipeline is blocked (R1312, R1316, R1338). -/
def walkWaits (s : State) (e : Option Engine) : Bool := engineHolds s e || s.missBlocked.isSome

/-- A context may run with what the IOMMU now says of its PASID (U43, R1348). -/
def iommuRefusal (c : Ctx) : Option Refusal :=
  if !c.advanced then none
  else if !c.iommu.paside then some .pasidDisabled
  else if c.iommu.neste then some .nestedTranslation
  else none

/-- A MOCS index that a client may not use (U17). -/
def mocsReserved (mocs : Option (BitVec 6)) : Bool := (mocs.map (fun i => decide (i.toNat ≥ 62))).getD false

/-- What the spec requires of an engine's access before it is translated: its MOCS entry (U17, U48), its client (R207,
U49), and the IOMMU inputs of its context (U43, R1348). -/
def clientProgramming (s : State) (e : Engine) (c : Ctx) (client : Client) (mocs : Option (BitVec 6)) (a : Acc) :
    Option Refusal :=
  if client.readOnly && isWrite a then some .readOnlyClient
  else if mocsReserved mocs then some .mocsReserved
  else if pfmField s e mocs ≠ 0 then some .pfmReserved
  else if c.advanced && c.faultModel.toNat == 1 && client == .hdcCoherent then some .coherentNeedsStream
  else iommuRefusal c

/-- End an operation that made a walk: the result to the requester, or the fault taken (R1300). -/
def finishWalk (w : WalkRes × State) (c : Option Ctx) (r : WalkReq) : Except Refusal State :=
  match w.1 with
  | .ok x _ => if xlateOk w.2.par x then .ok { w.2 with out := .xlate x } else .error .physicalRange
  | .fault code l us => takePageFault w.2 (faultOf r.engine c r.ggtt r.va r.acc code l us) r.client r.mocs (.walk r)
  | .error k =>
    match r.engine with
    | some e => .ok { takeCatastrophic w.2 e k with out := .error k }
    | none => .ok { w.2 with out := .error k }
  | .refuse e => .error e

/-- Make the walk a request asks for, in memory. With the engine hung or the miss pipeline blocked it waits. -/
def doWalk (r : WalkReq) (m : Mode) (c : Option Ctx) (cx : Ctx) (s : State) : Except Refusal State :=
  if walkWaits s r.engine then .ok (enqueue s (.plain (.walk r)))
  else finishWalk (walkMode s .memory r.engine cx m r.va r.acc) c r

/-- A context record for accesses of no engine: only the GGTT walk is made for them. -/
def noCtx : Ctx := ctxOfDescriptor .reset (.absent 0 0)

/-- A walk of the global GTT; the engine, if any, must have a resident context (R110) that may run (U43). -/
def walkGgtt (r : WalkReq) (s : State) : Except Refusal State :=
  match r.engine with
  | none => doWalk r .ggtt none noCtx s
  | some e =>
    match (s.eng e).ctx with
    | none => .error .noResidentContext
    | some c =>
      match iommuRefusal c with
      | some x => .error x
      | none => doWalk r .ggtt (some c) c s

/-- A walk of the engine's context, which must be resident and select this walker (R349, R571). -/
def walkCtx (m : Mode) (e : Engine) (r : WalkReq) (s : State) : Except Refusal State :=
  match (s.eng e).ctx with
  | none => .error .noResidentContext
  | some c =>
    if c.mode ≠ m then .error .wrongMode
    else match clientProgramming s e c r.client r.mocs r.acc with
      | some x => .error x
      | none => doWalk r m (some c) c s

/-- End an action that may be refused. -/
def outcome (r : Except Refusal State) : Host.Outcome State Fault Refusal :=
  match r with
  | .ok s => .next s
  | .error e => .refused e

/-- The request of a walk operation. -/
def ctxWalkReq (e : Engine) (client : Client) (mocs : BitVec 6) (a : Acc) (va : QWord) : WalkReq :=
  { engine := some e, ggtt := false, client := client, mocs := some mocs, acc := a, va := va.toNat }

/-- GGTT.WALK (R572), made for an engine or, with none, for the aperture or the display (R571). -/
def execGgttWalk (e : Option Engine) (a : Acc) (va : QWord) (s : State) : Host.Outcome State Fault Refusal :=
  outcome (walkGgtt { engine := e, ggtt := true, client := .other, mocs := none, acc := a, va := va.toNat } s)

/-- PPGTT32.WALK (R574). -/
def execPpgtt32Walk (e : Engine) (client : Client) (mocs : BitVec 6) (a : Acc) (va : QWord) (s : State) :
    Host.Outcome State Fault Refusal := outcome (walkCtx .legacy32 e (ctxWalkReq e client mocs a va) s)

/-- PPGTT48.WALK (R576). -/
def execPpgtt48Walk (e : Engine) (client : Client) (mocs : BitVec 6) (a : Acc) (va : QWord) (s : State) :
    Host.Outcome State Fault Refusal := outcome (walkCtx .legacy48 e (ctxWalkReq e client mocs a va) s)

/-- IA32E.WALK (R578). -/
def execIa32eWalk (e : Engine) (client : Client) (mocs : BitVec 6) (a : Acc) (va : QWord) (s : State) :
    Host.Outcome State Fault Refusal := outcome (walkCtx .advanced e (ctxWalkReq e client mocs a va) s)

end Sys2Proof.Machine
end

