-- ==== Sys2Proof/Machine/Access.lean ====
section
/-! DEFINITION. Translated accesses: the TLB in front of the walks (spec/43_gam_tlb.md R711), the TR-TT stage
(spec/41_trtt_and_entries.md R498 to R508), `Translate`, `VRead`, `VFetch`, `VWrite`, `VAtomic`
(spec/42_page_walks.md R570), and waiting requests made again (spec/60_exceptions.md R1316). -/
namespace Sys2Proof.Machine

/-- How a translation ends. `dirty` is the leaf's dirty flag (R744). -/
inductive Trans where
  | ok (x : Xlate) (dirty : Bool)
  | fault (f : PageFault)
  | filtered (f : PageFault)
  | blocked
  | error (k : ErrorKind)
  | refuse (r : Refusal)
  deriving DecidableEq, Repr

/-- The TLB entry of a walk's result (R710, R712). -/
def tlbEntryOf (va : Nat) (x : Xlate) (t : LeafAttr) : Option TlbEntry :=
  match x with
  | .nullPage => none
  | .phys pa size pat pcd pwt =>
    some { page := va / 2 ^ size.log, size := size, frame := pa - va % 2 ^ size.log, rw := t.rw, xd := t.xd,
           dirty := t.dirty, pat := pat, pcd := pcd, pwt := pwt }

/-- The address a TLB entry gives. -/
def TlbEntry.xlate (e : TlbEntry) (va : Nat) : Xlate :=
  .phys (e.frame + va % 2 ^ e.size.log) e.size e.pat e.pcd e.pwt

/-- A walk through the caches may meet a right that memory has granted since (R736(c)): the remembered entries on its
path go, so that a spurious fault comes at most once; whether the hardware walks again at once is a free choice, but for
a fetch without the right to execute, which always walks again (R711). -/
def walkCaches (s : State) (who : Option Engine) (cx : Ctx) (m : Mode) (va : Nat) (a : Acc) : WalkRes × State :=
  let r := walkMode s .caches who cx m va a
  match r.1 with
  | .fault code _ us =>
    let ch := freeChoice (dropPath r.2 who (walkPath s who cx m va ++ walkPath r.2 who cx m va))
    if ch.1 || (code == .privilege && a.isFetch && !us) then walkMode ch.2 .caches who cx m va a else (r.1, ch.2)
  | .ok _ _ => r
  | .error _ => r
  | .refuse _ => r

/-- The walk that a source stands for. -/
def walkFrom (s : State) (src : WalkSrc) (who : Option Engine) (cx : Ctx) (m : Mode) (va : Nat) (a : Acc) :
    WalkRes × State :=
  match src with
  | .memory => walkMode s .memory who cx m va a
  | .caches => walkCaches s who cx m va a
  | .held => walkMode s .held who cx m va a

/-- The result of a walk, and the entry it leaves in the TLB of the client's stream (R700). A walk in remembered entries
alone that faults waits. -/
def fillTlb (r : WalkRes × State) (src : WalkSrc) (who : Option Engine) (client : Client) (c : Option Ctx) (ggtt : Bool)
    (va : Nat) (a : Acc) : Trans × State :=
  match r.1 with
  | .ok x t =>
    (.ok x t.dirty, match tlbEntryOf va x t with
      | some e => if src == .memory then r.2 else remember r.2 who (.leaf (tlbOf who client) ggtt e)
      | none => r.2)
  | .fault code l us => (if src == .held then .blocked else .fault (faultOf who c ggtt va a code l us), r.2)
  | .error k => (.error k, r.2)
  | .refuse e => (.refuse e, r.2)

/-- A walk, and the entry it leaves in the TLB. -/
def walkAndFill (s : State) (src : WalkSrc) (who : Option Engine) (client : Client) (c : Option Ctx) (cx : Ctx) (m : Mode)
    (va : Nat) (a : Acc) : Trans × State :=
  fillTlb (walkFrom s src who cx m va a) src who client c (m == .ggtt) va a

/-- Look for a faulted record that filters an access (R713); replacement may have removed it (R714). -/
def faultedLookup (s : State) (who : Option Engine) (cx : Ctx) (va : Nat) (a : Acc) : Option FaultCode × State :=
  match findFaulted (s.facts who) cx.pasid (va / 4096) a with
  | none => (none, s)
  | some (code, f) =>
    let ch := freeChoice s
    if ch.1 then (some code, ch.2) else (none, dropFact ch.2 who f)

/-- The requests of a client whose fault has halted the engine. -/
def haltedRequests (s : State) (e : Engine) (client : Client) : List Waiter :=
  s.waiting.filter (fun w => w.faulted && w.isOf e && w.client == client)

/-- A client waits for the fault of a page that has halted its engine: no later access of it to the page completes first,
whatever a TLB holds (R1334(b)). `va` is an address of the page tables' space, as that of the fault is. -/
def faultPending (s : State) (who : Option Engine) (client : Client) (va : Nat) : Bool :=
  match who with
  | none => false
  | some e =>
    match (s.eng e).run with
    | .halted f => f.va / 4096 == va / 4096 && !(haltedRequests s e client).isEmpty
    | .idle => false
    | .running => false
    | .switching => false
    | .hung _ _ => false

/-- A TLB miss. With the miss pipeline blocked no new walk starts, but an access that hits the paging-structure caches may
complete (R1316): whether they still hold what it needs is a free choice. -/
def missWalk (s : State) (who : Option Engine) (client : Client) (c : Option Ctx) (cx : Ctx) (m : Mode) (va : Nat)
    (a : Acc) : Trans × State :=
  if s.missBlocked.isSome then
    let ch := freeChoice s
    if pathHeld ch.2 who cx m va && ch.1 then
      walkAndFill ch.2 .held who client c cx m va a
    else (.blocked, ch.2)
  else walkAndFill s .caches who client c cx m va a

/-- Stage 2 (R570) with the TLB and the faulted records in front of it (R711, R713). An access to the page whose fault its
client waits for waits too, also if the TLB holds the page (R1334(b)). `cached` is false for the walk operations, which
show the walk itself. -/
def stage2 (s : State) (cached : Bool) (who : Option Engine) (client : Client) (c : Option Ctx) (m : Mode) (va : Nat)
    (a : Acc) : Trans × State :=
  let cx := c.getD noCtx
  if cached then
    if m != .ggtt && faultPending s who client va then (.blocked, s)
    else match tlbLookup s who (tlbOf who client) c (m == .ggtt) va a with
    | (some e, s1) => (.ok (e.xlate va) e.dirty, s1)
    | (none, s1) =>
      match (if m == .ggtt then (none, s1) else faultedLookup s1 who cx va a) with
      | (some code, s2) => (.filtered (faultOf who c false va a code .pt false), s2)
      | (none, s2) => missWalk s2 who client c cx m va a
  else walkAndFill s .memory who client c cx m va a

/-! ### TR-TT -/

/-- TR-TT is active: bypass off and enabled (R496). -/
def trttOn (s : State) : Bool := bit s.reg4DFC 0 && bit s.trtt.trtte 0

/-- `InTRVA(va)` (R498). -/
def inTrva (s : State) (va : Nat) : Bool :=
  let mask := bits s.trtt.trvadr 7 4
  trttOn s && mask != 0 && (nbits va 47 44 &&& mask) == (bits s.trtt.trvadr 3 0 &&& mask)

/-- The programming the spec requires while TR-TT is on (R490(d), R494, R502): `m` is the mode of the context. -/
def trttProgramming (s : State) (m : Mode) : Option Refusal :=
  if !trttOn s then none
  else if m == .ggtt || m == .legacy32 then some .trttInvalidProgramming
  else if bits s.trtt.trvadr 7 4 ≠ 0 ∧ bits s.trtt.trvadr 7 4 ≠ 15 then some .trvaMask
  else if s.trtt.nullDetect = s.trtt.invalidDetect then some .detectValuesEqual
  else none

/-- How a TR-TT table read ends; `arb`: with an arbitrary value (R1330). -/
inductive TableRead where
  | value (v : QWord) (arb : Bool)
  | stop (t : Trans)
  deriving DecidableEq, Repr

/-- A table read that cannot be made gives an arbitrary value, and the render engine needs a reset (R505, R1330). -/
def tableReadLost (s : State) : TableRead × State :=
  let r := freeQ (loseTable s .render)
  (.value r.1 true, r.2)

/-- The bytes of a table entry, read under the controls of MOCS entry 62 (R244, R290). -/
def tableReadAt (s : State) (cached : Bool) (c : Ctx) (va n pa : Nat) (pat pcd pwt : Bool) : TableRead × State :=
  let ctl := memoryControls s (some .render) c.advanced .other (some 62) false pat pcd pwt pa
  let r := loadSeen { s with walkerCtl := some ctl, freeCount := s.freeCount + 1 }
    { agent := .walker, coherent := true, snoops := ctl.llcCoherent false } pa n
  let v : QWord := BitVec.ofNat 64 (leNat r.1)
  (.value v false, if cached then remember r.2 (some .render) (.trEntry va n v) else r.2)

/-- A table read through stage 2 (R505, R507), as a client of its own, one of the others (log entry 32). A recoverable
fault stops the walk and is handled as fault and halt; one to a page with an outstanding request waits for it; any other
failure gives an arbitrary value (R1330). -/
def tableReadMem (s : State) (cached : Bool) (c : Ctx) (m : Mode) (va n : Nat) : TableRead × State :=
  match stage2 s cached (some .render) .other (some c) m va .read with
  | (.ok (.phys pa _ pat pcd pwt) _, s1) =>
    if physOk s1.par pa n then tableReadAt s1 cached c va n pa pat pcd pwt
    else (.stop (.refuse .physicalRange), s1)
  | (.ok .nullPage _, s1) => (.value 0 false, s1)
  | (.fault f, s1) =>
    if c.advanced && c.iommu.preCtx then (.stop (.fault f), s1) else tableReadLost (takeTableFault s1 c f)
  | (.error k, s1) => tableReadLost (takeCatastrophic s1 .render k)
  | (.filtered f, s1) => (.stop (.filtered f), s1)
  | (.blocked, s1) => (.stop .blocked, s1)
  | (.refuse e, s1) => (.stop (.refuse e), s1)

/-- A table read of the TR walk: the tables lie outside TR-VA (R490(b)), but for the `spurious` addresses of a walk that
goes on with an arbitrary value (R1330); a remembered entry may stand for it (R716). `failed`: the page request for
this read was answered unsuccessfully. -/
def tableRead (s : State) (cached failed spurious : Bool) (c : Ctx) (m : Mode) (va n : Nat) : TableRead × State :=
  if failed then tableReadLost s
  else if inTrva s va && !spurious then (.stop (.refuse .trttInvalidProgramming), s)
  else if cached then
    match findTrEntry (s.facts (some .render)) va n with
    | some v =>
      let ch := freeChoice s
      if ch.1 then (.value v false, ch.2)
      else tableReadMem (dropFact ch.2 (some .render) (.trEntry va n v)) cached c m va n
    | none => tableReadMem s cached c m va n
  else tableReadMem s cached c m va n

/-- `NullOrInvalid` of R508 on an L3 or L2 entry with bit 0 or bit 1 set. -/
def nullOrInvalid (p : Params) (e : QWord) : TrttResult :=
  match bit e 1, bit e 0 with
  | true, false => .null
  | false, true => .invalid
  | true, true => p.trttBothBits
  | false, false => p.trttBothBits

/-- How `TRTT.WALK` ends: a result, `arb` if an arbitrary value took part in it; or the stop of the table read of a
level. -/
inductive TrttRes where
  | done (r : TrttResult) (arb : Bool)
  | stop (t : Trans) (level : Nat)
  deriving DecidableEq, Repr

/-- The L1 step (R508): compare with the detection values, else form the address. `fail` is the level whose table read
has failed (R1330). -/
def trttL1 (s : State) (cached : Bool) (fail : Option Nat) (spurious : Bool) (c : Ctx) (m : Mode) (e2 : QWord)
    (va : Nat) : TrttRes × State :=
  match tableRead s cached (fail == some 1) spurious c m (bits e2 47 12 * 4096 + 4 * nbits va 25 16) 4 with
  | (.stop t, s1) => (.stop t 1, s1)
  | (.value v arb, s1) =>
    let e1 : DWord := BitVec.ofNat 32 v.toNat
    if e1 = s1.trtt.nullDetect then (.done .null (spurious || arb), s1)
    else if e1 = s1.trtt.invalidDetect then (.done .invalid (spurious || arb), s1)
    else (.done (.mapped (e1.toNat * 65536 + va % 65536)) (spurious || arb), s1)

/-- The L2 step (R508). -/
def trttL2 (s : State) (cached : Bool) (fail : Option Nat) (spurious : Bool) (c : Ctx) (m : Mode) (e3 : QWord)
    (va : Nat) : TrttRes × State :=
  match tableRead s cached (fail == some 2) spurious c m (bits e3 47 12 * 4096 + 8 * nbits va 34 26) 8 with
  | (.stop t, s1) => (.stop t 2, s1)
  | (.value e2 arb, s1) =>
    if bit e2 0 || bit e2 1 then (.done (nullOrInvalid s1.par e2) (spurious || arb), s1)
    else trttL1 s1 cached fail (spurious || arb) c m e2 va

/-- `TRTT.WALK` (R508). -/
def trttWalk (s : State) (cached : Bool) (fail : Option Nat) (c : Ctx) (m : Mode) (va : Nat) : TrttRes × State :=
  match tableRead s cached (fail == some 3) false c m (bits s.trtt.l3ptr 47 16 * 65536 + 8 * nbits va 43 35) 8 with
  | (.stop t, s1) => (.stop t 3, s1)
  | (.value e3 arb, s1) =>
    if bit e3 0 || bit e3 1 then (.done (nullOrInvalid s1.par e3) arb, s1)
    else trttL2 s1 cached fail arb c m e3 va

/-- The tile of a result, without the offset in it. -/
def TrttResult.tile (r : TrttResult) : TrttResult :=
  match r with
  | .mapped v => .mapped (v / 65536 * 65536)
  | .null => .null
  | .invalid => .invalid

/-- The result of a remembered tile for an address in it. -/
def TrttResult.at (r : TrttResult) (va : Nat) : TrttResult :=
  match r with
  | .mapped v => .mapped (v + va % 65536)
  | .null => .null
  | .invalid => .invalid

/-- The walk of an access, and the complete result it leaves in the TR-TT caches (R716). -/
def trttFill (s : State) (fail : Option Nat) (c : Ctx) (m : Mode) (va : Nat) : TrttRes × State :=
  match trttWalk s true fail c m va with
  | (.done r arb, s1) =>
    (.done r arb, if arb then s1 else remember s1 (some .render) (.trTile (va / 65536) r.tile))
  | (.stop t l, s1) => (.stop t l, s1)

/-- TR-TT with its caches in front (R716). A walk whose table read has failed goes on from there (R1330). -/
def trttLookup (s : State) (fail : Option Nat) (c : Ctx) (m : Mode) (va : Nat) : TrttRes × State :=
  match fail, findTile (s.facts (some .render)) (va / 65536) with
  | none, some r =>
    let ch := freeChoice s
    if ch.1 then (.done (r.at va) false, ch.2)
    else trttFill (dropFact ch.2 (some .render) (.trTile (va / 65536) r)) fail c m va
  | none, none => trttFill s fail c m va
  | some _, _ => trttFill s fail c m va

/-- What a null or invalid result does beside its answer (R500, R501, R504): the counter, or the interrupt. -/
def trttEffect (s : State) (r : TrttResult) (va : Nat) : State :=
  match r with
  | .null => { s with nullTileCount := s.nullTileCount + 1 }
  | .invalid => s.post .driver (.trttInvalidTile va)
  | .mapped _ => s

/-- What an access does beside its answer because of the tile it meets; once for each access (R504, R1326). -/
def tileEffect (s : State) (tile : Option TrttResult) (va : Nat) : State :=
  match tile with
  | none => s
  | some r => trttEffect s r va

/-- A byte that a request touches: its address, its translation, and the null or invalid tile that made it null. -/
structure Touch where
  va : Nat
  x : Xlate
  tile : Option TrttResult
  deriving DecidableEq, Repr

/-- The effect of the first byte in a tile of one kind, if there is one. -/
def touchEffect (s : State) (r : TrttResult) (ts : List Touch) : State :=
  match ts.find? (fun t => t.tile == some r) with
  | none => s
  | some t => trttEffect s r t.va

/-- What a request does beside its answer because of the tiles that its bytes meet: at most one count and one event for
each request (R504, R1326; log entry 30). -/
def tileEffects (s : State) (ts : List Touch) : State := touchEffect (touchEffect s .null ts) .invalid ts

/-- The result of `Translate`; the level of the TR-TT table read that met the fault, if one did (R1316, R1330); and
the null or invalid tile of TR-TT that made it null. -/
structure TransOut where
  t : Trans
  table : Option Nat
  tile : Option TrttResult
  deriving DecidableEq, Repr

/-- A translation in which TR-TT has no part. -/
def TransOut.plain (t : Trans) : TransOut := { t := t, table := none, tile := none }

/-- `Translate` (R570). TR-TT comes before every walker (R349); whether it may be on is a matter of the render engine's
context (R490(d)), whose page tables its table reads use (R507). What a null or invalid tile does beside its answer
happens when the access completes (`tileEffect`). Bits above the 48 of an address are refused (U4). -/
def translate (s : State) (fail : Option Nat) (who : Option Engine) (client : Client) (c : Option Ctx) (m : Mode)
    (va : Nat) (a : Acc) : TransOut × State :=
  if va ≥ 2 ^ 48 then (.plain (.refuse .vaOutOfRange), s)
  else
    let cx := c.getD noCtx
    match (if who == some .render then trttProgramming s cx.mode else none) with
    | some r => (.plain (.refuse r), s)
    | none =>
      if who == some .render && inTrva s va then
        match trttLookup s fail cx cx.mode va with
        | (.stop t l, s1) => ({ t := t, table := some l, tile := none }, s1)
        | (.done .null _, s1) => ({ t := .ok .nullPage false, table := none, tile := some .null }, s1)
        | (.done .invalid _, s1) => ({ t := .ok .nullPage false, table := none, tile := some .invalid }, s1)
        | (.done (.mapped va') _, s1) =>
          let r := stage2 s1 true who client c m va' a
          (.plain r.1, r.2)
      else
        let r := stage2 s true who client c m va a
        (.plain r.1, r.2)

/-! ### Accesses -/

/-- Bytes an operation addresses. -/
def AccessOp.size : AccessOp → Nat
  | .vread n => n
  | .vfetch n => n
  | .vwrite d => d.length
  | .vatomic n _ => n

/-- The function of a data atomic of `n` bytes (R570, R792), before its result is cut to `n` bytes. A comparison is with as
many bytes of the operand (DESIGN CHOICE, log entry 6). -/
def RmwFun.apply (f : RmwFun) (n old : Nat) : Nat :=
  match f with
  | .exchange v => v
  | .add v => old + v
  | .and v => old &&& v
  | .or v => old ||| v
  | .xor v => old ^^^ v
  | .cmpExchange c v => if old = c % 2 ^ (8 * n) then v else old

/-- The bytes that an atomic of `n` bytes leaves: its function of all `n` bytes, taken as one little-endian number, whatever
`n` is (R570 `AtomicRMW`; DESIGN CHOICE, log entry 6: the sizes are in other volumes). -/
def rmwBytes (n : Nat) (f : RmwFun) (old : List Byte) : List Byte := leBytes n (f.apply n (leNat old))

/-- The store of an atomic: on memory itself (R284, R792), and none where nothing changes. -/
def rmwStore (s : State) (w : WriteVia) (pa : Nat) (old new : List Byte) : State :=
  if new = old then s else storeSeen s { w with held := false } pa new

/-- How an access reads memory (R280): as the cache that serves it; the host and the aperture snoop the processor's
caches, the display engine does not. -/
def readerOf (s : State) (a : MemAccess) (m : MemControls) : Reader :=
  { agent := cacheOf a, coherent := !gpuCached s a m,
    snoops := if a.engine.isNone then !a.display else snoopsHost s a m }

/-- How it writes memory; `ev` are the controls with which the line leaves the L3. Only a line written as WB stays in LLC
alone (R268). -/
def viaOf (s : State) (a : MemAccess) (m ev : MemControls) : WriteVia :=
  { writer := cacheOf a, held := gpuCached s a m, unsnooped := a.engine.isSome && !snoopsHost s a m,
    inLlc := ev.inLlc && ev.type == .wb }

/-- Perform an access at a physical address (R570), as its agent sees memory (R280): memory, data returned. An atomic
acts on memory itself (R284, R792). What the fence of an uncacheable access with a fence orders the spec does not say
(R282 item 6): it orders nothing but the access itself, and earlier writes of the client stay held (DESIGN CHOICE, log
entry 15). -/
def performAt (s : State) (a : MemAccess) (m ev : MemControls) (pa : Nat) : List Byte × State :=
  let r := readerOf s a m
  let w := viaOf s a m ev
  match a.op with
  | .vread n =>
    let v := loadSeen s r pa n
    (v.1, noteCached v.2 r pa n)
  | .vfetch n =>
    let v := loadSeen s r pa n
    (v.1, noteCached v.2 r pa n)
  | .vwrite d => ([], noteCached (storeSeen s w pa d) r pa d.length)
  | .vatomic n f =>
    let old := Memory.readBytes s.mem pa n
    (old, rmwStore s w pa old (rmwBytes n f old))

/-- Zeros for a null-page read (R500). -/
def zeros (n : Nat) : List Byte := List.replicate n 0

/-- Whether an atomic of an advanced context meets non-WB memory (R792). -/
def atomicNonWB (s : State) (op : AccessOp) (advanced pat pcd pwt : Bool) (pa : Nat) : Bool :=
  match op with
  | .vatomic _ _ => advanced && effectiveMemType s.par (patIndex pat pcd pwt) pa != .wb
  | .vread _ => false
  | .vfetch _ => false
  | .vwrite _ => false

/-- The engine of an access runs an advanced context. -/
def inAdvanced (s : State) (a : MemAccess) : Bool :=
  ((a.engine.bind (fun e => (s.eng e).ctx)).map Ctx.advanced).getD false

/-- The cache controls of an access (R250); a physical address says itself whether it is snooped (R230). R250 asks for the
context's mode only and R262 gives the GGTT the private PAT: an access of an advanced context that selects the GGTT has the
effective type of R264, with PAT index 0, as its other accesses have (DESIGN CHOICE, log entry 32). -/
def accessControls (s : State) (a : MemAccess) (mocs : Option (BitVec 6)) (pat pcd pwt : Bool) (pa : Nat) :
    MemControls :=
  let m := memoryControls s a.engine (inAdvanced s a) a.client mocs (isWrite a.op.acc) pat pcd pwt pa
  match a.space with
  | .virtual => m
  | .physical snooped => { m with snoop := snooped }

/-- The MOCS entry with whose controls the line of an access leaves the L3: 63 for a coherent access of a context with
the deeper level of coherency (R244, R286). -/
def evictionMocs (s : State) (a : MemAccess) : Option (BitVec 6) := if deepCoherent s a then some 63 else a.mocs

/-- An access of zeros (R500). -/
def nullAccess (s : State) (a : MemAccess) : State :=
  s.giveReturn (returnOf s a (zeros a.op.readLen) true true .noFault none)

/-- Perform an access at its physical address, and answer the client. -/
def performAccess (s : State) (a : MemAccess) (pat pcd pwt : Bool) (pa : Nat) : State :=
  let ctl := accessControls s a a.mocs pat pcd pwt pa
  let ev := accessControls s a (evictionMocs s a) pat pcd pwt pa
  let r := performAt { s with freeCount := s.freeCount + 1 } a ctl ev pa
  r.2.giveReturn { returnOf r.2 a r.1 false true .noFault (some ctl) with evict := some ev }

/-- An atomic to memory that is not WB fails as an error: memory is unchanged (R792, R1328). -/
def failAtomic (s : State) (a : MemAccess) : State :=
  match a.engine with
  | some e => completeInvalid (takeCatastrophic s e .atomicNonWB) (.access a)
  | none => completeInvalid s (.access a)

/-- Finish an access at its physical address; an atomic of an advanced context to non-WB memory is refused as an error
(R792, R1328). -/
def finishPhys (s : State) (a : MemAccess) (pat pcd pwt : Bool) (pa : Nat) : State :=
  if atomicNonWB s a.op (inAdvanced s a) pat pcd pwt pa then failAtomic s a else performAccess s a pat pcd pwt pa

/-! ### Atomics in parts

An access that would cross a 4 KB boundary is split there and each part is translated on its own (R570). The function of
an atomic takes all the bytes together (R570 `AtomicRMW`), so its parts are read together and then written. -/

/-- A part of an atomic: its translation and its length. -/
structure AtomicPart where
  x : Xlate
  len : Nat
  deriving DecidableEq, Repr

/-- What an atomic reads in a part: zeros in a null one (R500). -/
def AtomicPart.old (s : State) (q : AtomicPart) : List Byte :=
  match q.x with
  | .nullPage => zeros q.len
  | .phys pa _ _ _ _ => Memory.readBytes s.mem pa q.len

/-- The part lies in a null page. -/
def AtomicPart.null (q : AtomicPart) : Bool :=
  match q.x with
  | .nullPage => true
  | .phys _ _ _ _ _ => false

/-- A part fails the test of an atomic (R792). -/
def AtomicPart.nonWB (s : State) (a : MemAccess) (q : AtomicPart) : Bool :=
  match q.x with
  | .nullPage => false
  | .phys pa _ pat pcd pwt => atomicNonWB s a.op (inAdvanced s a) pat pcd pwt pa

/-- The controls of a part, and those with which its line leaves the L3. -/
def AtomicPart.controls (s : State) (a : MemAccess) (q : AtomicPart) : Option (MemControls × MemControls) :=
  match q.x with
  | .nullPage => none
  | .phys pa _ pat pcd pwt =>
    some (accessControls s a a.mocs pat pcd pwt pa, accessControls s a (evictionMocs s a) pat pcd pwt pa)

/-- What an atomic writes in a part: nothing in a null one (R500). -/
def AtomicPart.store (q : AtomicPart) (a : MemAccess) (new : List Byte) (s : State) : State :=
  match q.x with
  | .nullPage => s
  | .phys pa _ pat pcd pwt =>
    rmwStore s (viaOf s a (accessControls s a a.mocs pat pcd pwt pa) (accessControls s a (evictionMocs s a) pat pcd pwt pa))
      pa (q.old s) new

/-- Write the parts, each its bytes of the new value. -/
def storeParts (a : MemAccess) : List AtomicPart → List Byte → State → State
  | [], _, s => s
  | q :: qs, new, s => storeParts a qs (new.drop q.len) (q.store a (new.take q.len) s)

/-- An atomic in parts, as one action. The null indicator is set if a part is null, and the controls told are those of the
first part that is not (DESIGN CHOICE, log entry 27). -/
def performParts (s : State) (a : MemAccess) (qs : List AtomicPart) : State :=
  match a.op with
  | .vatomic n f =>
    if qs.any (AtomicPart.nonWB s a) then failAtomic s a
    else
      let old := (qs.map (AtomicPart.old s)).flatten
      let ctl := (qs.filterMap (AtomicPart.controls s a)).head?
      let t := storeParts a qs (rmwBytes n f old) { s with freeCount := s.freeCount + 1 }
      t.giveReturn { returnOf t a old (qs.any AtomicPart.null) true .noFault (ctl.map Prod.fst) with
        evict := ctl.map Prod.snd }
  | .vread _ => s
  | .vfetch _ => s
  | .vwrite _ => s

/-- A reading request also reads another byte that it touches (R1286, R1288): the line may enter the client's cache, and
the data goes nowhere. A write leaves the other bytes alone. -/
def overRead (a : MemAccess) (s : State) (t : Touch) : State :=
  match t.x with
  | .nullPage => s
  | .phys pa _ pat pcd pwt =>
    if isWrite a.op.acc then s
    else noteCached { s with freeCount := s.freeCount + 1 }
      (readerOf s a (accessControls s a a.mocs pat pcd pwt pa)) pa 1

/-- The length of the first part of an access: all of it, but for an atomic in parts. -/
def MemAccess.firstLen (a : MemAccess) : Nat := a.op.size - (a.later.map Prod.snd).sum

/-- The own bytes of an access, in their parts. -/
def MemAccess.parts (a : MemAccess) (x : Xlate) (later : List Touch) : List AtomicPart :=
  { x := x, len := a.firstLen } :: List.zipWith (fun t p => { x := t.x, len := p.2 }) later a.later

/-- The physical addresses of a part are ones that a translation may give (U16). -/
def AtomicPart.inRange (p : Params) (q : AtomicPart) : Bool :=
  match q.x with
  | .nullPage => true
  | .phys pa _ _ _ _ => physOk p pa q.len

/-- The physical addresses of all the bytes of an access, and those of the other bytes it touches, are ones that a
translation may give (U16). -/
def touchesOk (p : Params) (qs : List AtomicPart) (around : List Touch) : Bool :=
  qs.all (AtomicPart.inRange p) && around.all (fun t => xlateOk p t.x)

/-- Perform an access whose bytes have their translation: its first part and, of an atomic in parts, the later ones. -/
def performTouched (s : State) (a : MemAccess) (x : Xlate) (later : List Touch) : State :=
  match later with
  | [] =>
    match x with
    | .nullPage => nullAccess s a
    | .phys pa _ pat pcd pwt => finishPhys s a pat pcd pwt pa
  | _ :: _ => performParts s a (a.parts x later)

/-- Finish an access whose translations succeeded: that of its own bytes, in one part or with `later` ones, and those of the
others it touches (R570, U16, U8, R1286, R1288). The other bytes of a WRITE's request are translated as writes too, and
count and post for their tiles, though they are neither read nor written (DESIGN CHOICE, log entry 30). -/
def finishAccess (s : State) (a : MemAccess) (main : Touch) (later around : List Touch) : Except Refusal State :=
  if a.tileX && (main :: (later ++ around)).any (fun t => t.tile.isSome) then .error .nullTileOnTileX
  else if !touchesOk s.par (a.parts main.x later) around then .error .physicalRange
  else .ok (performTouched (around.foldl (overRead a) (tileEffects s (main :: (later ++ around)))) a main.x later)

/-- The range of a directly specified physical address (R230): of an unsnooped one below the top of memory, of a snooped
one all that a physical address can be. Nothing is looked up at a BAR: it acts on physical memory (log entry 32). -/
def directOk (p : Params) (snooped : Bool) (pa n : Nat) : Bool :=
  decide (pa + n ≤ if snooped then 2 ^ p.haw else p.topOfMemory)

/-- The engine and the context that a fault belongs to. -/
def faultOwner (s : State) (f : PageFault) : Option (Engine × Ctx) :=
  f.engine.bind (fun e => (s.eng e).ctx.map (fun c => (e, c)))

/-- A request that waits without a fault of its own; `table`: the level of the TR-TT table whose read has to wait, lost if
the response fails (R505, R1336). -/
def Waiter.stopped (p : Pending) (table : Option Nat) : Waiter := { req := p, faulted := false, table := table }

/-- What a faulted translation does to its request: the fault is taken (R1300); one met by a TR-TT table read is
fault and halt (R1316); a filtered one repeats the code under fault and stream, and else waits (R713, R1320). -/
def faultRequest (s : State) (o : TransOut) (client : Client) (mocs : Option (BitVec 6)) (p : Pending) :
    Except Refusal State :=
  match o.t with
  | .fault f =>
    if o.table.isSome then
      match faultOwner s f with
      | some (e, c) => .ok (takeHalt s e c .other f o.table p)
      | none => .error .noResidentContext
    else takePageFault s f client mocs p
  | .filtered f =>
    if o.table.isSome then .ok (enqueue s (.stopped p o.table))
    else match faultOwner s f with
    | some (e, c) =>
      match faultModelOf s e c client mocs false with
      | .ok .stream => .ok (returnFaultCode s f .stream p)
      | .ok .halt => .ok (enqueue s (.plain p))
      | .ok .hang => .ok (enqueue s (.plain p))
      | .error r => .error r
    | none => .error .noResidentContext
  | .blocked => .ok (enqueue s (.stopped p o.table))
  | .error k =>
    match p.engine with
    | some e => .ok (completeInvalid { takeCatastrophic s e k with out := .error k } p)
    | none => .ok (completeInvalid s p)
  | .refuse r => .error r
  | .ok _ _ => .ok s

/-- The mode that translates an access (R571). -/
def accessMode (a : MemAccess) (c : Option Ctx) : Mode :=
  if a.useGgtt then .ggtt
  else match c with
    | none => .ggtt
    | some c => c.mode

/-- An access of a client that only reads (R207), the display engine among them. -/
def MemAccess.readOnly (a : MemAccess) : Bool := a.client.readOnly || a.display

/-- What the spec requires of an access before it is translated (R207, R110, U17, U48, U49, U43, R1348). With no resident
context an engine issues no translated access (R110); one that specifies a physical address itself is made without a
context (R230; DESIGN CHOICE, log entry 32). -/
def accessProgramming (s : State) (a : MemAccess) (c : Option Ctx) : Option Refusal :=
  if a.readOnly && isWrite a.op.acc then some .readOnlyClient
  else if mocsReserved a.mocs then some .mocsReserved
  else match a.engine, c with
    | none, _ => none
    | some _, none => if a.space == .virtual then some .noResidentContext else none
    | some e, some c => clientProgramming s e c a.client a.mocs a.op.acc

/-- A mini-TLB entry that serves an access: its HDC, its page, and asked for with this intent (R718, R744). -/
def MiniTlbEntry.serves (x : MiniTlbEntry) (a : MemAccess) : Bool :=
  a.client.isHdc && a.engine == some .render && a.space == .virtual && !a.useGgtt && x.slice == a.slice
    && x.hdc == a.hdc && x.vpage.toNat == a.va / 4096 && (x.write || !isWrite a.op.acc)

/-- The translation of a page, for an address in it. -/
def Xlate.at (x : Xlate) (va : Nat) : Xlate :=
  match x with
  | .phys pa size pat pcd pwt => .phys (pa / 4096 * 4096 + va % 4096) size pat pcd pwt
  | .nullPage => .nullPage

/-- The mini-TLB of the HDC that makes an access (R718), an abstract cache of R702. -/
def miniLookup (s : State) (a : MemAccess) : Option Xlate × State :=
  match s.miniTlb.find? (fun x => x.serves a) with
  | none => (none, s)
  | some x =>
    let ch := freeChoice s
    if ch.1 then (some (x.xlate.at a.va), ch.2) else (none, { ch.2 with miniTlb := ch.2.miniTlb.filter (fun y => y ≠ x) })

/-- Pages that a request asks for. -/
def Pending.pages (p : Pending) : List Nat :=
  match p with
  | .access a => (a.va :: (a.later.map Prod.fst ++ a.around)).map (fun va => va / 4096)
  | .hdc q => [q.vpage.toNat]
  | .walk r => [r.va / 4096]
  | .trtt va => [va / 4096]
  | .aux x y _ => [x / 4096, y / 4096]
  | .available _ => []
  | .switchOut _ => []

/-- A client has a request for a page of its own, that its fault or the fault of a TR-TT table read for it has stopped. -/
def stoppedFor (s : State) (e : Engine) (client : Client) (page : Nat) : Bool :=
  s.waiting.any (fun w => w.faulted && w.isOf e && w.req.client == client && w.req.pages.contains page)

/-- While the engine is halted a mini-TLB does not serve what its client waits for (R1334(b)): the page of the fault, a page
that the stopped request asks for, and an address that TR-TT may map to the page of the fault, which GAM alone can
tell. GAM is asked. -/
def miniPending (s : State) (a : MemAccess) : Bool :=
  match (s.eng .render).run with
  | .halted _ =>
    faultPending s (some .render) a.client a.va || stoppedFor s .render a.client (a.va / 4096)
      || (inTrva s a.va && !(haltedRequests s .render a.client).isEmpty)
  | .idle => false
  | .running => false
  | .switching => false
  | .hung _ _ => false

/-- An access of an HDC, which asks GAM for what its mini-TLB lacks (R718). -/
def MemAccess.ofHdc (a : MemAccess) : Bool := a.client.isHdc && a.engine == some .render

/-- Translate the address of an access: through the mini-TLB of its HDC, and else in GAM. Between the start and the end of
an invalidation no HDC is served (R746). -/
def translateAccess (s : State) (fail : Option Nat) (a : MemAccess) (c : Option Ctx) : TransOut × State :=
  match (if miniPending s a then (none, s) else miniLookup s a) with
  | (some x, s1) => (.plain (.ok x false), s1)
  | (none, s1) =>
    if s1.hdcInvalidating && a.ofHdc then (.plain .blocked, s1)
    else translate s1 fail a.engine a.client c (accessMode a c) a.va a.op.acc

/-- Translate what a request touches beside its first part, until one stops it: the later parts of an atomic (R570) and the
other bytes of its cache lines or cache request (R1286, R1288), all with the request's own kind of access. That the other
bytes of a write ask for the right to write and set D, though they are not written, is the model's (DESIGN CHOICE, log
entry 30). -/
def translateAround (s : State) (fail : Option Nat) (a : MemAccess) (c : Option Ctx) :
    List Nat → Except TransOut (List Touch) × State
  | [] => (.ok [], s)
  | va :: vas =>
    let r := translateAccess s fail { a with va := va } c
    match r.1.t with
    | .ok x _ =>
      let q := translateAround r.2 fail a c vas
      (q.1.map (List.cons { va := va, x := x, tile := r.1.tile }), q.2)
    | .fault _ => (.error r.1, r.2)
    | .filtered _ => (.error r.1, r.2)
    | .blocked => (.error r.1, r.2)
    | .error _ => (.error r.1, r.2)
    | .refuse _ => (.error r.1, r.2)

/-- What a request does once its address is translated: a fault of any byte it touches is its own (R570, R1286, R1288). -/
def translatedAccess (r : TransOut × State) (fail : Option Nat) (a : MemAccess) (c : Option Ctx) :
    Except Refusal State :=
  match r.1.t with
  | .ok x _ =>
    match translateAround r.2 fail a c (a.later.map Prod.fst ++ a.around) with
    | (.ok ts, s1) =>
      finishAccess s1 a { va := a.va, x := x, tile := r.1.tile } (ts.take a.later.length) (ts.drop a.later.length)
    | (.error o, s1) => faultRequest s1 o a.client a.mocs (.access a)
  | .fault _ => faultRequest r.2 r.1 a.client a.mocs (.access a)
  | .filtered _ => faultRequest r.2 r.1 a.client a.mocs (.access a)
  | .blocked => faultRequest r.2 r.1 a.client a.mocs (.access a)
  | .error _ => faultRequest r.2 r.1 a.client a.mocs (.access a)
  | .refuse e => .error e

/-- A later part of an access at a physical address. -/
def directTouch (p : Nat × Nat) : Touch := { va := p.1, x := .phys p.1 .size4K false false false, tile := none }

/-- One access inside one page, or an atomic with its parts (R570). One that specifies a physical address is not
translated (R230); no leaf entry gives it a PAT index, and its cache controls and its test of an atomic use index 0,
PAT = PCD = PWT = 0 (DESIGN CHOICE, log entry 32). `fail`: the level of the TR-TT table read that was answered
unsuccessfully (R1330). -/
def accessOne (s : State) (fail : Option Nat) (a : MemAccess) : Except Refusal State :=
  let c := a.engine.bind (fun e => (s.eng e).ctx)
  if engineHolds s a.engine then .ok (enqueue s (.plain (.access a)))
  else match accessProgramming s a c with
    | some r => .error r
    | none =>
      match a.space with
      | .physical snooped =>
        if directOk s.par snooped a.va a.op.size then
          .ok (performTouched s a (.phys a.va .size4K false false false) (a.later.map directTouch))
        else .error .physicalRange
      | .virtual => translatedAccess (translateAccess s fail a c) fail a c

/-- The bytes of an access, cut at 4 KB pages: address and length; `fuel` bounds the number of pages. -/
def pagePieces : Nat → Nat → Nat → List (Nat × Nat)
  | 0, _, _ => []
  | fuel + 1, a, n =>
    if n = 0 then []
    else
      let k := min n (4096 - a % 4096)
      (a, k) :: pagePieces fuel (a + k) (n - k)

/-- An atomic on these pieces of addresses, the first of them at `a.va`: one action (R570). -/
def atomicAccess (s : State) (a : MemAccess) (pieces : List (Nat × Nat)) : Except Refusal State :=
  accessOne s none { a with later := pieces.drop 1 }

/-- The parts of a read or a write, split at 4 KB boundaries (R201, R570). An atomic is one action (`atomicAccess`). -/
def splitOp (op : AccessOp) (k : Nat) : AccessOp × AccessOp :=
  match op with
  | .vread n => (.vread k, .vread (n - k))
  | .vfetch n => (.vfetch k, .vfetch (n - k))
  | .vwrite d => (.vwrite (d.take k), .vwrite (d.drop k))
  | .vatomic n f => (.vatomic n f, .vatomic n f)

/-- Perform a read or a write part by part; `fuel` bounds the number of pages. The order of the parts, which R202
leaves open, is that of their addresses (DESIGN CHOICE, log entry 32). -/
def accessParts (s : State) (a : MemAccess) : Nat → Except Refusal State
  | 0 => accessOne s none a
  | fuel + 1 =>
    let room := 4096 - a.va % 4096
    if a.op.size ≤ room then accessOne s none a
    else
      let parts := splitOp a.op room
      let head : MemAccess := { a with op := parts.1 }
      let rest : MemAccess := { a with va := a.va + room, op := parts.2, around := [] }
      match accessOne s none head with
      | .error r => .error r
      | .ok s1 => accessParts s1 rest fuel

/-- `VRead`, `VFetch`, `VWrite`, `VAtomic` (R570), each split at 4 KB boundaries. -/
def access (s : State) (a : MemAccess) : Except Refusal State :=
  match a.op with
  | .vatomic n _ => atomicAccess s a (pagePieces (n / 4096 + 2) a.va n)
  | .vread _ => accessParts s { a with later := [] } (a.op.size / 4096 + 1)
  | .vfetch _ => accessParts s { a with later := [] } (a.op.size / 4096 + 1)
  | .vwrite _ => accessParts s { a with later := [] } (a.op.size / 4096 + 1)

/-! ### The HDC walk port -/

/-- Bits 38:12 of an address (R744), for every HAW (log entry 32). -/
def pa38 (pa : Nat) : BitVec 27 := BitVec.ofNat 27 (pa / 4096)

/-- The effective memory type of a response (R745, R264); for a legacy context the page tables' private PAT. -/
def hdcMemType (s : State) (c : Ctx) (q : HdcReq) (pat pcd pwt : Bool) (pa : Nat) : MemType :=
  (memoryControls s (some .render) c.advanced q.client none q.write pat pcd pwt pa).type

/-- The response to a request whose page is translated (R744); with no field for a null page it is one without a
translation (log entry 32). A request that meets a null or an invalid tile counts, or posts, as an access of its own (R504,
R1326; DESIGN CHOICE, log entry 21). -/
def hdcAnswer (s : State) (c : Ctx) (q : HdcReq) (x : Xlate) (tile : Option TrttResult) (d : Bool) :
    Except Refusal State :=
  let mode := modeOf s (some .render) q.client none false
  match x with
  | .phys pa _ pat pcd pwt =>
    if !physOk s.par pa 1 then .error .physicalRange
    else .ok (sendHdcResponse s
      { slice := q.slice, hdc := q.hdc, pa := pa38 pa, write := q.write, d := d, code := .noFault,
        memType := hdcMemType s c q pat pcd pwt pa, tracking := q.tracking, mode := mode, xlate := some x })
  | .nullPage =>
    let h := hdcFaultResponse (tileEffect s tile (q.vpage.toNat * 4096)) q .noFault mode
    .ok (sendHdcResponse h.2 h.1)

/-- Translate for the HDC walk port and answer (R742). -/
def hdcRequest (s : State) (fail : Option Nat) (q : HdcReq) : Except Refusal State :=
  if engineHolds s (some .render) then .ok (enqueue s (.plain (.hdc q)))
  else match (s.eng .render).ctx with
  | none => .error .noResidentContext
  | some c =>
    if c.advanced && c.faultModel.toNat == 1 && q.faultable then .error .coherentNeedsStream
    else match iommuRefusal c with
    | some r => .error r
    | none =>
      let r := translate s fail (some .render) q.client (some c) c.mode (q.vpage.toNat * 4096)
        (if q.write then .write else .read)
      match r.1.t with
      | .ok x d => hdcAnswer r.2 c q x r.1.tile d
      | .fault _ => faultRequest r.2 r.1 q.client none (.hdc q)
      | .filtered _ => faultRequest r.2 r.1 q.client none (.hdc q)
      | .blocked => faultRequest r.2 r.1 q.client none (.hdc q)
      | .error _ => faultRequest r.2 r.1 q.client none (.hdc q)
      | .refuse e => .error e

/-! ### The TR-TT walk as an operation -/

/-- What keeps `TRTT.WALK` from being selected for `va` (R498, R490, R480). -/
def trttRefusal (s : State) (m : Mode) (va : Nat) : Option Refusal :=
  if va ≥ 2 ^ 48 then some .vaOutOfRange
  else match trttProgramming s m with
    | some r => some r
    | none => if inTrva s va then none else some .wrongMode

/-- Make the walk for the context resident on the render engine, with its effects (R500, R501, R504, R507). -/
def trttMake (s : State) (fail : Option Nat) (c : Ctx) (va : Nat) : Except Refusal State :=
  match trttWalk s false fail c c.mode va with
  | (.done r _, s1) => .ok { trttEffect s1 r va with out := .trtt r }
  | (.stop (.fault f) l, s1) => .ok (takeHalt s1 .render c .other f (some l) (.trtt va))
  | (.stop (.filtered _) l, s1) => .ok (enqueue s1 (.stopped (.trtt va) (some l)))
  | (.stop .blocked l, s1) => .ok (enqueue s1 (.stopped (.trtt va) (some l)))
  | (.stop (.error k) _, s1) => .ok { takeCatastrophic s1 .render k with out := .error k }
  | (.stop (.refuse r) _, _) => .error r
  | (.stop (.ok _ _) _, s1) => .ok s1

/-- `TRTT.WALK` (R508): selected by a render access inside TR-VA space. With the engine hung or the miss pipeline blocked
it waits. -/
def trttOperation (s : State) (fail : Option Nat) (va : Nat) : Except Refusal State :=
  match (s.eng .render).ctx with
  | none => .error .noResidentContext
  | some c =>
    match trttRefusal s c.mode va with
    | some r => .error r
    | none =>
      match iommuRefusal c with
      | some r => .error r
      | none =>
        if walkWaits s (some .render) then .ok (enqueue s (.plain (.trtt va))) else trttMake s fail c va

end Sys2Proof.Machine
end

