-- ==== Sys2Proof/Machine/Tlb.lean ====
section
/-! DEFINITION. `TRTT.WALK` as an operation, and `TLB.INVALIDATE` (spec/43_gam_tlb.md R730 to R736). -/
namespace Sys2Proof.Machine

/-- TRTT.WALK (R508): selected by a render access inside TR-VA space. -/
def execTrttWalk (va : BitVec 64) (s : State) : Host.Outcome State Fault Refusal :=
  outcome (trttOperation s none va.toNat)

/-! ### TLB.INVALIDATE -/

/-- A final TLB entry covers the 4 KB page `n`. -/
def TlbEntry.covers (e : TlbEntry) (n : Nat) : Bool := e.page == n / 2 ^ (e.size.log - 12)

/-- Whether an invalidation removes a fact of an engine (R730): everything of the engine or the PASID, or what concerns
one page. The context cache and the PASID cache go "along with all low level caches" (R703, R704); TR-TT facts (R730,
R716) and copies in the GTT cache within the scope (R730, R724) go always, a pointer entry with the page-walk caches.
`whole`: the scope is not one page. Of "Hardware may always invalidate more than the scope asks" (R730) the model always
does this (DESIGN CHOICE, log entry 32): a scope that is not one page drops the page-walk caches also when final TLBs only
are asked for; one page drops the GTT-cache copies of every page and, with the page-walk caches, every pointer entry. -/
def factRemoved (whole : Bool) (page : Nat) (structs : InvStructs) (f : Fact) : Bool :=
  whole || structs.pasidCache || structs.contextCache ||
    match f with
    | .leaf _ g e => !g && e.covers page
    | .faulted _ p _ _ _ => p == page
    | .gttEntry _ _ => true
    | .trEntry _ _ _ => true
    | .trTile _ _ => true
    | .entry _ _ => structs.pwc

/-- Remove facts from an engine. -/
def EngineState.dropFacts (x : EngineState) (whole : Bool) (page : Nat) (structs : InvStructs) : EngineState :=
  { x with facts := x.facts.filter (fun f => !factRemoved whole page structs f) }

/-- Take the PASID-cache copy again from the IOMMU's structures (R668, R704). Whether the context may run with what they
now say is tested at its next access. -/
def refetchCtx (xs : List IommuEntry) (c : Ctx) : Ctx :=
  let x := findIommu xs c.function c.pasid
  if c.advanced then { c with iommu := x, pml4 := x.pml4 } else c

/-- Refetch what the PASID cache or the context cache held. -/
def EngineState.refetch (x : EngineState) (xs : List IommuEntry) (structs : InvStructs) : EngineState :=
  if structs.pasidCache || structs.contextCache then { x with ctx := x.ctx.map (refetchCtx xs) } else x

/-- Whether the resident context of an engine runs in a PASID. -/
def EngineState.inPasid (x : EngineState) (p : BitVec 20) : Bool :=
  match x.ctx with
  | none => false
  | some c => c.advanced && c.pasid == p

/-- Whether an invalidation reaches an engine (R730). -/
def scopeReaches (k : InvScope) (e : Engine) (x : EngineState) : Bool :=
  match k with
  | .all => true
  | .engine f => e == f
  | .pasid p => x.inPasid p
  | .page p _ => x.inPasid p

/-- The page a scope is limited to. -/
def scopePage (k : InvScope) : Option Nat :=
  match k with
  | .page _ n => some n.toNat
  | .all => none
  | .engine _ => none
  | .pasid _ => none

/-- Invalidate one engine. -/
def invalidateEngine (s : State) (k : InvScope) (structs : InvStructs) (e : Engine) : State :=
  let x := s.eng e
  if scopeReaches k e x then
    s.setEng e ((x.dropFacts (scopePage k).isNone ((scopePage k).getD 0) structs).refetch s.iommu structs)
  else s

/-- The HDC part of an invalidation that touches the render engine (R746, "Model"): every response sent has been seen,
every mini-TLB is empty, and every request that waits on the port, or that an HDC holds back, is dropped; the HDC
asks again. How the credits of dropped requests come back is not said; here all are back at once (log entry 32). -/
def wipeHdc (s : State) : State :=
  { s with
    miniTlb := []
    hdcResponses := []
    hdcQueue := []
    hdcPorts := s.hdcPorts.map (fun p => { p with outstanding := [] })
    waiting := s.waiting.filter (fun w => match w.req with
      | .hdc _ => false
      | .access _ => true
      | .walk _ => true
      | .trtt _ => true
      | .aux _ _ _ => true
      | .available _ => true
      | .switchOut _ => true) }

/-- `TLB.INVALIDATE(scope)` (R730). The scope "all engines" reaches the facts of accesses of no engine too, which no other
scope does (DESIGN CHOICE, log entry 32). -/
def invalidateTlb (s : State) (k : InvScope) (structs : InvStructs) : State :=
  let hdc := scopeReaches k .render (s.eng .render)
  let s1 := [Engine.render, .vcs0, .vcs1, .vecs, .bcs].foldl (fun t e => invalidateEngine t k structs e) s
  let s2 := if k == .all then { s1 with sharedFacts := [] } else s1
  if hdc then wipeHdc s2 else s2

/-- TLB.INVALIDATE (R730). -/
def execTlbInvalidate (scope : InvScope) (structs : InvStructs) (s : State) : Host.Outcome State Fault Refusal :=
  answer (invalidateTlb s scope structs) .none

end Sys2Proof.Machine
end

