-- ==== Sys2Proof/Machine/Hdc.lean ====
section
/-! DEFINITION. The HDC walk port (spec/43_gam_tlb.md R740 to R746). -/
namespace Sys2Proof.Machine

/-- An HDC's port in the list. -/
def HdcPort.isOf (p : HdcPort) (slice hdc : BitVec 2) : Bool := p.slice == slice && p.hdc == hdc

/-- The requests an HDC has outstanding (R114). -/
def outstandingOf : List HdcPort → BitVec 2 → BitVec 2 → List HdcAsked
  | [], _, _ => []
  | p :: ps, slice, hdc => if p.isOf slice hdc then p.outstanding else outstandingOf ps slice hdc

/-- Replace what an HDC has outstanding. -/
def setOutstanding : List HdcPort → BitVec 2 → BitVec 2 → List HdcAsked → List HdcPort
  | [], slice, hdc, ts => [{ slice := slice, hdc := hdc, outstanding := ts }]
  | p :: ps, slice, hdc, ts =>
    if p.isOf slice hdc then { p with outstanding := ts } :: ps else p :: setOutstanding ps slice hdc ts

/-- Take the first request with a tracking number out of a list. -/
def takeAsked : List HdcAsked → BitVec 8 → Option HdcAsked × List HdcAsked
  | [], _ => (none, [])
  | t :: ts, x =>
    if t.tracking = x then (some t, ts)
    else
      let r := takeAsked ts x
      (r.1, t :: r.2)

/-- The request a message is. -/
def reqOf (m : PageReqMsg) : HdcReq :=
  { slice := m.slice, hdc := m.hdc, vpage := m.vpage, write := m.write, tracking := m.tracking,
    faultable := m.faultable }

/-- An HDC sends a page request (R740, R742): it takes one of its two credits, and without one holds the request back. -/
def sendPageReq (q : HdcReq) (s : State) : Except Refusal State :=
  let ts := outstandingOf s.hdcPorts q.slice q.hdc
  if ts.length ≥ 2 then .ok { s with hdcQueue := s.hdcQueue ++ [q], out := .waits }
  else
    hdcRequest { s with hdcPorts := setOutstanding s.hdcPorts q.slice q.hdc
                                      (ts ++ [{ tracking := q.tracking, vpage := q.vpage }]) } none q

/-- HDC.PAGEREQ (R742). A message that is not valid is no message; a request met by an invalidation in progress is
dropped (R746 step 3). -/
def execHdcPageReq (m : PageReqMsg) (s : State) : Host.Outcome State Fault Refusal :=
  if !m.valid then answer s .none
  else if s.hdcInvalidating then answer s .dropped
  else outcome (sendPageReq (reqOf m) s)

/-- The response a message is, with the translation it stands for. -/
def respOf (m : PageRespMsg) (x : Option Xlate) : HdcResp :=
  { slice := m.slice, hdc := m.hdc, pa := m.pa, write := m.write, d := m.d, code := m.code, memType := m.memType,
    tracking := m.tracking, mode := m.mode, xlate := x }

/-- The response on the bus that a message is, and the others. -/
def takeResponse : List HdcResp → PageRespMsg → Option HdcResp × List HdcResp
  | [], _ => (none, [])
  | r :: rs, m =>
    if r = respOf m r.xlate then (some r, rs)
    else
      let q := takeResponse rs m
      (q.1, r :: q.2)

/-- The mini-TLB entry a response leaves (R718): of a response that stands for a translation (R1324). -/
def miniEntry (r : HdcResp) (vpage : BitVec 36) : List MiniTlbEntry :=
  match r.code, r.xlate with
  | .noFault, some x =>
    [{ slice := r.slice, hdc := r.hdc, vpage := vpage, pa := r.pa, write := r.write, d := r.d, memType := r.memType,
       xlate := x }]
  | .noFault, none => []
  | .notPresent, _ => []
  | .privilege, _ => []
  | .writePermission, _ => []

/-- The HDC a response names claims it, and its credit with it (R744). A response whose tracking number that HDC did
not ask for is claimed by nobody. -/
def claimResponse (s : State) (m : PageRespMsg) : State :=
  let q := takeResponse s.hdcResponses m
  let r := q.1.getD (respOf m none)
  let ts := takeAsked (outstandingOf s.hdcPorts r.slice r.hdc) r.tracking
  let s1 := { s with hdcResponses := q.2, out := .hdc r }
  match ts.1 with
  | some t =>
    { s1 with hdcPorts := setOutstanding s.hdcPorts r.slice r.hdc ts.2, miniTlb := miniEntry r t.vpage ++ s.miniTlb }
  | none => s1

/-- The first request that an HDC holds back, and the others. -/
def takeHeld : List HdcReq → BitVec 2 → BitVec 2 → Option HdcReq × List HdcReq
  | [], _, _ => (none, [])
  | q :: qs, slice, hdc =>
    if q.slice = slice ∧ q.hdc = hdc then (some q, qs)
    else
      let r := takeHeld qs slice hdc
      (r.1, q :: r.2)

/-- With a credit back, an HDC sends the request it has held back longest (R740). -/
def sendHeld (slice hdc : BitVec 2) (s : State) : Except Refusal State :=
  let r := takeHeld s.hdcQueue slice hdc
  match r.1 with
  | none => .ok s
  | some q => sendPageReq q { s with hdcQueue := r.2 }

/-- HDC.PAGERESP (R744): the broadcast. None is sent after "TLB invalidation start" (R746 step 3). -/
def execHdcPageResp (m : PageRespMsg) (s : State) : Host.Outcome State Fault Refusal :=
  if !m.valid then answer s .none
  else if s.hdcInvalidating then answer s .dropped
  else outcome (sendHeld m.slice m.hdc (claimResponse s m))

/-- Every HDC has acknowledged (R746 step 4). -/
def allAcked (s : State) : Bool := s.par.hdcs.all (fun h => s.hdcAcks.contains h)

end Sys2Proof.Machine
end

