-- ==== Sys2Proof/Machine/Waiting.lean ====
section
/-! DEFINITION. The queue of waiting requests and messages (spec/60_exceptions.md R1312, R1316): a context leaves its
engine when nothing of it waits (spec/43_gam_tlb.md R680, R684), and what waits is done again, in arrival order. -/
namespace Sys2Proof.Machine

/-- An engine has requests that wait. -/
def hasWaiting (s : State) (e : Engine) : Bool := s.waiting.any (fun w => w.isOf e)

/-- A delivery, or the taking out of a context, wipes what the HDCs hold of the render engine's space (R732, R746). -/
def wipeHdcOf (s : State) (e : Engine) : State := if e = .render then wipeHdc s else s

/-- The old context leaves and GAM answers Context Receive Ready (R680 steps 1 and 2). -/
def receiveReady (s : State) (e : Engine) : State :=
  ((wipeHdcOf (leaveEngine s e false) e).setRun e .switching).post .commandStreamers (.contextReceiveReady e)

/-- Context Available (R680 step 1). GAM answers when the requests of the old context are complete ("proper fencing"), and
no reset is in progress; a second message in a delivery is answered again. -/
def contextAvailable (s : State) (e : Engine) : State :=
  let waits := enqueue s (.plain (.available e))
  if (s.eng e).resetPending || hasWaiting s e then waits
  else match (s.eng e).run with
    | .idle => receiveReady s e
    | .running => receiveReady s e
    | .halted _ => waits
    | .hung _ _ => waits
    | .switching => s.post .commandStreamers (.contextReceiveReady e)

/-- A waiting request whose faults would be streamed: its originator replays it (R1320). -/
def Waiter.replayed (s : State) (e : Engine) (c : Ctx) (w : Waiter) : Bool :=
  let streams (client : Client) (mocs : Option (BitVec 6)) (ggtt : Bool) : Bool :=
    match faultModelOf s e c client mocs ggtt with
    | .ok .stream => true
    | .ok .halt => false
    | .ok .hang => false
    | .error _ => false
  match w.req with
  | .access a => streams a.client a.mocs a.useGgtt
  | .hdc q => streams q.client none false
  | .walk _ => false
  | .trtt _ => false
  | .aux _ _ _ => false
  | .available _ => false
  | .switchOut _ => false

/-- The context leaves its engine, which is then idle (R684). -/
def leaveIdle (s : State) (e : Engine) : State := (wipeHdcOf (leaveEngine s e false) e).setRun e .idle

/-- The scheduler switches a context out (R684, R1340): not a halted one (R1316); a streaming one at any time, its
originators replaying what waits (R1320); any other when its requests are complete. With no context there is nothing
to do. -/
def switchOut (s : State) (e : Engine) : State :=
  let waits := enqueue s (.plain (.switchOut e))
  match (s.eng e).ctx with
  | none => s
  | some c =>
    let leave := if s.waiting.all (fun w => !w.isOf e || w.replayed s e c) then leaveIdle (dropWaiting s e) e else waits
    match (s.eng e).run with
    | .idle => leave
    | .running => leave
    | .halted _ => waits
    | .hung _ _ => waits
    | .switching => s

/-! ### Again -/

/-- A request still has to wait: its engine holds it, or its own fault has halted the engine. -/
def keepsWaiting (s : State) (w : Waiter) : Bool :=
  w.req.isRequest && (engineHolds s w.req.engine ||
    (w.faulted && match w.req.engine with
      | none => false
      | some e =>
        match (s.eng e).run with
        | .halted _ => true
        | .idle => false
        | .running => false
        | .switching => false
        | .hung _ _ => false))

/-- Make a walk again. -/
def walkAgain (r : WalkReq) (s : State) : Except Refusal State :=
  match r.engine with
  | none => walkGgtt r s
  | some e =>
    match (s.eng e).ctx with
    | none => .ok s
    | some c => if r.ggtt then walkGgtt r s else walkCtx c.mode e r s

/-- Make a TR-TT walk again, with the tests of the first time: the registers may have changed meanwhile, to detection values
that are equal (R502), to another mask (R494) or to another TR-VA space (R498). With its context gone it is no more asked. -/
def trttAgain (s : State) (fail : Option Nat) (va : Nat) : Except Refusal State :=
  match (s.eng .render).ctx with
  | none => .ok s
  | some _ => trttOperation s fail va

/-! ### Samples of a surface with an auxiliary surface -/

/-- Whether the tile of an address is mapped, by its TR-TT translation (R413): outside TR-VA it is; an invalid tile counts
as a null one (R501). `p`: the sample, if the walk stops (`none`). -/
def auxTile (s : State) (fail : Option Nat) (c : Ctx) (va : Nat) (p : Pending) :
    Except Refusal (Option TrttResult × State) :=
  if !inTrva s va then .ok (some (.mapped va), s)
  else match trttLookup s fail c c.mode va with
    | (.done r _, s1) => .ok (some r, s1)
    | (.stop (.fault f) l, s1) => .ok (none, takeHalt s1 .render c .other f (some l) p)
    | (.stop (.filtered _) l, s1) => .ok (none, enqueue s1 (.stopped p (some l)))
    | (.stop .blocked l, s1) => .ok (none, enqueue s1 (.stopped p (some l)))
    | (.stop (.error k) _, s1) => .ok (none, completeInvalid { takeCatastrophic s1 .render k with out := .error k } p)
    | (.stop (.refuse r) _, _) => .error r
    | (.stop (.ok _ _) _, s1) => .ok (none, s1)

/-- A tile that has somewhere to go. -/
def TrttResult.isMapped (r : TrttResult) : Bool :=
  match r with
  | .mapped _ => true
  | .null => false
  | .invalid => false

/-- The auxiliary tile of a sample whose main tile is mapped (R413 to R416). -/
def auxSecond (s : State) (fail : Option Nat) (c : Ctx) (main aux : Nat) : Except Refusal State :=
  match auxTile s fail c aux (.aux main aux true) with
  | .error x => .error x
  | .ok (none, s1) => .ok s1
  | .ok (some q, s1) =>
    match auxResponse true q.isMapped with
    | some _ => .ok { s1 with out := .sampleNormal }
    | none => .error .auxTileUnmapped

/-- The tiles of a sample, the main one first. With the main tile unmapped the response is NULL whatever the auxiliary tile
is (R413 to R416): it is then not translated, a DESIGN CHOICE (log entry 32). -/
def auxTiles (s : State) (fail : Option Nat) (c : Ctx) (main aux : Nat) (mainMapped : Bool) : Except Refusal State :=
  if mainMapped then auxSecond s fail c main aux
  else match auxTile s fail c main (.aux main aux false) with
    | .error x => .error x
    | .ok (none, s1) => .ok s1
    | .ok (some r, s1) =>
      if r.isMapped then auxSecond s1 none c main aux
      else .ok { trttEffect s1 r main with out := .sampleNull zeroTexel }

/-- A sample of a surface with an auxiliary surface (R413 to R416), of the context resident on the render engine. With the
engine hung it waits (R1312). -/
def auxSample (s : State) (fail : Option Nat) (main aux : Nat) (mainMapped : Bool) : Except Refusal State :=
  if engineHolds s (some .render) then .ok (enqueue s (.plain (.aux main aux mainMapped)))
  else match (s.eng .render).ctx with
  | none => .error .noResidentContext
  | some c =>
    if main ≥ 2 ^ 48 ∨ aux ≥ 2 ^ 48 then .error .vaOutOfRange
    else match iommuRefusal c, trttProgramming s c.mode with
      | some x, _ => .error x
      | none, some x => .error x
      | none, none => auxTiles s fail c main aux mainMapped

/-- Ask a sample again; with its context gone it is no more asked. -/
def auxAgain (s : State) (fail : Option Nat) (main aux : Nat) (mainMapped : Bool) : Except Refusal State :=
  match (s.eng .render).ctx with
  | none => .ok s
  | some _ => auxSample s fail main aux mainMapped

/-! ### In arrival order -/

/-- Do again, from the start, what waits (R1316). `fail`: the level of the TR-TT table read that was answered
unsuccessfully (R1330). -/
def attempt (s : State) (fail : Option Nat) (w : Waiter) : Except Refusal State :=
  if keepsWaiting s w then .ok (enqueue s w)
  else match w.req with
    | .access a => accessOne s fail a
    | .hdc q => hdcRequest s fail q
    | .walk r => walkAgain r s
    | .trtt va => trttAgain s fail va
    | .aux main aux known => auxAgain s fail main aux known
    | .available e => .ok (contextAvailable s e)
    | .switchOut e => .ok (switchOut s e)

/-- Do again what waits, in arrival order; what must wait again joins the queue at its end. -/
def retryAll : List Waiter → State → Except Refusal State
  | [], s => .ok s
  | w :: ws, s =>
    match attempt s none w with
    | .ok s' => retryAll ws s'
    | .error r => .error r

/-- Take the whole waiting queue and do it again. -/
def drain (s : State) : Except Refusal State := retryAll s.waiting { s with waiting := [] }

/-- Do again the requests that wait before any message about contexts. -/
def retryRequests (s : State) : Except Refusal State :=
  match retryAll (s.waiting.takeWhile (fun w => w.req.isRequest)) { s with waiting := [] } with
  | .ok t => .ok { t with waiting := t.waiting ++ s.waiting.dropWhile (fun w => w.req.isRequest) }
  | .error r => .error r

/-- After an operation: requests may be complete, or dropped (R746), that a message about contexts has waited for. -/
def settle (s : State) : Host.Outcome State Fault Refusal :=
  if s.waiting.any (fun w => !w.req.isRequest) then outcome (drain s) else .next s

/-! ### The end of an invalidation -/

/-- HDC.TLBINV (R746): start, the acknowledgement of one HDC, end. A second start joins the first ("GAM combines all
TLB invalidation events"); an acknowledgement of nothing has no effect; GAM sends no end before every HDC has
acknowledged: it waits. After the end HDCs ask again for what has waited (step 5). -/
def execHdcTlbInv (m : TlbInvMsg) (s : State) : Host.Outcome State Fault Refusal :=
  match m with
  | .start =>
    if s.hdcInvalidating then answer s .none
    else answer { wipeHdc s with hdcInvalidating := true, hdcAcks := [] } .none
  | .ack slice hdc =>
    if s.hdcInvalidating then
      answer { s with hdcAcks := if s.hdcAcks.contains (slice, hdc) then s.hdcAcks else s.hdcAcks ++ [(slice, hdc)] }
        .none
    else answer s .none
  | .stop =>
    if !s.hdcInvalidating then answer s .none
    else if allAcked s then outcome (retryRequests { s with hdcInvalidating := false, hdcAcks := [], out := .none })
    else answer s .waits

end Sys2Proof.Machine
end

