-- ==== Sys2Proof/Machine/Mmio.lean ====
section
/-! DEFINITION. The MMIO register file (spec/10_state.md R36, R50 to R105) and the PCI capability registers in
configuration space (R150 to R168): which register an offset names, what a read returns, what a write changes. -/
namespace Sys2Proof.Machine

/-- What an MMIO DWord offset names (R50). -/
inductive MmioReg where
  /-- A message register, either direction (R62). -/
  | message
  | r404C | r4A30 | r4DFC
  /-- A private PAT register (R84). -/
  | pat0 | pat1 | pat2 | pat3
  /-- DWord `k` of an engine's descriptor registers (R60). -/
  | descriptor (e : Engine) (k : Nat)
  /-- L3 control entries `2i` and `2i + 1` (R80). -/
  | l3Pair (i : Nat)
  /-- A memory interface control register (R82). -/
  | gamtReg (i : Nat)
  | mchbar
  | nullRange
  | trL3Low | trL3High | trNull | trInvalid | trvadrReg | trtteReg | nullCount | adNonWBReg
  /-- Not listed (R52). -/
  | unlisted
  deriving DecidableEq, Repr

/-- The engine at a position of the descriptor table (R60). -/
def engineAt (k : Nat) : Engine :=
  match k with
  | 0 => .render
  | 1 => .vcs0
  | 2 => .vcs1
  | 3 => .vecs
  | _ => .bcs

/-- The CS-to-GAM message register of an engine (R62, R682). -/
def messageOffset (e : Engine) : Nat :=
  match e with
  | .render => 0x4004
  | .vcs0 => 0x4008
  | .vcs1 => 0x400C
  | .vecs => 0x4010
  | .bcs => 0x4014

/-- The message registers of both directions (R62). -/
def messageOffsets : List Nat :=
  [0x4004, 0x4008, 0x400C, 0x4010, 0x4014, 0x3438, 0x13438, 0x1D438, 0x1B438, 0x23438]

/-- The open offsets (R50, log entry 9). -/
def openReg (p : Params) (o : Nat) : MmioReg :=
  if o = p.ofsTrvattL3Ptr then .trL3Low
  else if o = p.ofsTrvattL3Ptr + 4 then .trL3High
  else if o = p.ofsTrNullDetect then .trNull
  else if o = p.ofsTrInvalidDetect then .trInvalid
  else if o = p.ofsTrvadr then .trvadrReg
  else if o = p.ofsTrtte then .trtteReg
  else if o = p.ofsTrNullCount then .nullCount
  else if o = p.ofsAdNonWB then .adNonWBReg
  else .unlisted

/-- The descriptor DWord at an offset: five registers of 8 bytes in each 64-byte set (R60). -/
def descriptorReg (o : Nat) : MmioReg :=
  let k := (o - 0x4400) % 64 / 4
  if k < 10 then .descriptor (engineAt ((o - 0x4400) / 64)) k else .unlisted

/-- The register at a DWord-aligned MMIO offset (R50). -/
def mmioReg (p : Params) (o : Nat) : MmioReg :=
  if messageOffsets.contains o then .message
  else if o = 0x404C then .r404C
  else if o = 0x4A30 then .r4A30
  else if o = 0x4DFC then .r4DFC
  else if o = 0x40E0 then .pat0
  else if o = 0x40E4 then .pat1
  else if o = 0x40E8 then .pat2
  else if o = 0x40EC then .pat3
  else if 0x4400 ≤ o ∧ o < 0x4540 then descriptorReg o
  else if 0xB020 ≤ o ∧ o < 0xB0A0 then .l3Pair ((o - 0xB020) / 4)
  else if 0xC800 ≤ o ∧ o < 0xD000 then .gamtReg ((o - 0xC800) / 4)
  else if 0x140000 ≤ o ∧ o < 0x148000 then .mchbar
  else if 0x170000 ≤ o ∧ o < 0x180000 then .nullRange
  else openReg p o

/-- One of the five descriptor registers. -/
def Descriptor.qword (d : Descriptor) (i : Nat) : QWord :=
  match i with
  | 0 => d.element
  | 1 => d.pdp0
  | 2 => d.pdp1
  | 3 => d.pdp2
  | _ => d.pdp3

/-- Replace one of the five descriptor registers. -/
def Descriptor.setQword (d : Descriptor) (i : Nat) (v : QWord) : Descriptor :=
  match i with
  | 0 => { d with element := v }
  | 1 => { d with pdp0 := v }
  | 2 => { d with pdp1 := v }
  | 3 => { d with pdp2 := v }
  | _ => { d with pdp3 := v }

/-- A half of a QWord register: 0 low, 1 high (R36(b)). -/
def halfOf (q : QWord) (h : Nat) : DWord := BitVec.ofNat 32 (q.toNat >>> (32 * h))

/-- Replace a half of a QWord register. -/
def setHalf (q : QWord) (h : Nat) (v : DWord) : QWord :=
  if h = 0 then BitVec.ofNat 64 ((halfOf q 1).toNat * 2 ^ 32 + v.toNat)
  else BitVec.ofNat 64 (v.toNat * 2 ^ 32 + (halfOf q 0).toNat)

/-- A read-write register write: the bits of `m` take the new value (R36(c), (d)). -/
def merge (m old v : DWord) : DWord := (old &&& ~~~m) ||| (v &&& m)

/-- Some engine has a resident context. -/
def anyResident (s : State) : Bool :=
  [Engine.render, .vcs0, .vcs1, .vecs, .bcs].any (fun e => (s.eng e).ctx.isSome)

/-- An arbitrary private PAT of `n` entries: the type from one free byte; target, age and class of service from
separate bits of another. -/
def freePat (s : State) : Nat → List PatEntry × State
  | 0 => ([], s)
  | n + 1 =>
    let t := freeBytes s 1
    let b := freeBytes t.2 1
    let k := leNat b.1
    let target : TargetCache := match k % 4 with | 0 => .noCache | 1 => .llc | 2 => .llcEllc | _ => .ellcOnly
    let r := freePat b.2 n
    ({ memtype := memTypeAt (leNat t.1), target := target, age := BitVec.ofNat 2 (k / 4), cos := BitVec.ofNat 2 (k / 16) }
      :: r.1, r.2)

/-- A write of the private PAT registers changes the function they stand for in an unspecified way; it is fixed while a
context is resident (R84). -/
def patWritten (s : State) : State :=
  if anyResident s then s
  else
    let r := freePat s 8
    { r.2 with par := { r.2.par with privatePat := r.1 } }

/-- Read a register as the host does (R36). -/
def regRead (s : State) (r : MmioReg) : Except Refusal DWord :=
  match r with
  | .message => .ok 0
  | .r404C => .ok s.reg404C
  | .r4A30 => .ok s.reg4A30
  | .r4DFC => .ok s.reg4DFC
  | .pat0 => .ok s.reg40E0
  | .pat1 => .ok s.reg40E4
  | .pat2 => .ok s.reg40E8
  | .pat3 => .ok s.reg40EC
  | .descriptor e k => .ok (halfOf ((s.eng e).desc.qword (k / 2)) (k % 2))
  | .l3Pair i =>
    .ok (BitVec.ofNat 32 ((s.l3Control.getD (2 * i + 1) 0).toNat * 65536 + (s.l3Control.getD (2 * i) 0).toNat))
  | .gamtReg i => .ok (s.gamt.getD i 0)
  | .mchbar => .error .mchbarAccess
  | .nullRange => .ok 0
  | .trL3Low => .ok (halfOf s.trtt.l3ptr 0)
  | .trL3High => .ok (halfOf s.trtt.l3ptr 1)
  | .trNull => .ok s.trtt.nullDetect
  | .trInvalid => .ok s.trtt.invalidDetect
  | .trvadrReg => .ok s.trtt.trvadr
  | .trtteReg => .ok s.trtt.trtte
  | .nullCount => .ok (BitVec.ofNat 32 s.nullTileCount)
  | .adNonWBReg => .ok s.adNonWB
  | .unlisted => .error .unlistedRegister

/-- Write the bits `m` of a register as the host does (R36): read-only registers, reserved fields and message
registers ignore the write. -/
def regWrite (s : State) (r : MmioReg) (m v : DWord) : Except Refusal State :=
  match r with
  | .message => .ok s
  | .r404C => .ok { s with reg404C := merge m s.reg404C v }
  | .r4A30 => .ok { s with reg4A30 := merge m s.reg4A30 v }
  | .r4DFC => .ok { s with reg4DFC := merge m s.reg4DFC v }
  | .pat0 => .ok (patWritten { s with reg40E0 := merge m s.reg40E0 v })
  | .pat1 => .ok (patWritten { s with reg40E4 := merge m s.reg40E4 v })
  | .pat2 => .ok (patWritten { s with reg40E8 := merge m s.reg40E8 v })
  | .pat3 => .ok (patWritten { s with reg40EC := merge m s.reg40EC v })
  | .descriptor _ _ => .ok s
  | .l3Pair i =>
    let lo := s.l3Control.getD (2 * i) 0
    let hi := s.l3Control.getD (2 * i + 1) 0
    let w := merge (m &&& 0x003F003F) (BitVec.ofNat 32 (hi.toNat * 65536 + lo.toNat)) v
    .ok { s with l3Control := (s.l3Control.set (2 * i) (BitVec.ofNat 16 w.toNat)).set (2 * i + 1)
                                (BitVec.ofNat 16 (w.toNat / 65536)) }
  | .gamtReg i => .ok { s with gamt := s.gamt.set i (merge (m &&& 0x1FFFF) (s.gamt.getD i 0) v) }
  | .mchbar => .error .mchbarAccess
  | .nullRange => .ok s
  | .trL3Low =>
    .ok { s with trtt := { s.trtt with
            l3ptr := setHalf s.trtt.l3ptr 0 (merge (m &&& 0xFFFF0000) (halfOf s.trtt.l3ptr 0) v) } }
  | .trL3High =>
    .ok { s with trtt := { s.trtt with
            l3ptr := setHalf s.trtt.l3ptr 1 (merge (m &&& 0x0000FFFF) (halfOf s.trtt.l3ptr 1) v) } }
  | .trNull => .ok { s with trtt := { s.trtt with nullDetect := merge m s.trtt.nullDetect v } }
  | .trInvalid => .ok { s with trtt := { s.trtt with invalidDetect := merge m s.trtt.invalidDetect v } }
  | .trvadrReg => .ok { s with trtt := { s.trtt with trvadr := merge (m &&& 0xFF) s.trtt.trvadr v } }
  | .trtteReg => .ok { s with trtt := { s.trtt with trtte := merge (m &&& 3) s.trtt.trtte v } }
  | .nullCount => .ok s
  | .adNonWBReg => .ok { s with adNonWB := merge m s.adNonWB v }
  | .unlisted => .error .unlistedRegister

/-- Read a DWord of MMIO space. -/
def mmioRead (s : State) (o : Nat) : Except Refusal DWord := regRead s (mmioReg s.par (o / 4 * 4))

/-- Write a DWord of MMIO space. -/
def mmioWrite (s : State) (o : Nat) (m v : DWord) : Except Refusal State :=
  regWrite s (mmioReg s.par (o / 4 * 4)) m v

/-- Read one byte of MMIO space. -/
def mmioReadByte (s : State) (o : Nat) : Except Refusal Byte :=
  match mmioRead s o with
  | .ok v => .ok (BitVec.ofNat 8 (v.toNat >>> (8 * (o % 4))))
  | .error r => .error r

/-- Write one byte of MMIO space. -/
def mmioWriteByte (s : State) (o : Nat) (b : Byte) : Except Refusal State :=
  let k := 8 * (o % 4)
  mmioWrite s o (BitVec.ofNat 32 (255 <<< k)) (BitVec.ofNat 32 (b.toNat <<< k))

/-- Read bytes of the register file. -/
def regReadBytes (s : State) (o : Nat) : Nat → Except Refusal (List Byte)
  | 0 => .ok []
  | n + 1 =>
    match mmioReadByte s o, regReadBytes s (o + 1) n with
    | .ok b, .ok bs => .ok (b :: bs)
    | .error r, _ => .error r
    | .ok _, .error r => .error r

/-- Write bytes of the register file. -/
def regWriteBytes (s : State) (o : Nat) : List Byte → Except Refusal State
  | [] => .ok s
  | b :: bs =>
    match mmioWriteByte s o b with
    | .ok s1 => regWriteBytes s1 (o + 1) bs
    | .error r => .error r

/-- An access lies in the MCHBAR window (R228). -/
def inMchbar (o n : Nat) : Bool := decide (0x140000 ≤ o) && decide (o + n ≤ 0x148000)

/-- It is an aligned Word, DWord or QWord (R228). -/
def mchbarAligned (o n : Nat) : Bool := [2, 4, 8].contains n && o % n == 0

/-- A host read of MMIO space; in the window one of `MCHBAR` (R104, R228). -/
def mmioReadBytes (s : State) (o n : Nat) : Except Refusal (List Byte) :=
  if inMchbar o n then
    if mchbarAligned o n then .ok (Memory.readBytes s.mchbar (o - 0x140000) n) else .error .mchbarAccess
  else regReadBytes s o n

/-- A host write of MMIO space. What a register of device 0 holds after a write through the window is device 0's matter:
an arbitrary value (log entry 27). -/
def mmioWriteBytes (s : State) (o : Nat) (d : List Byte) : Except Refusal State :=
  if inMchbar o d.length then
    if mchbarAligned o d.length then
      let r := freeBytes s d.length
      .ok { r.2 with mchbar := Memory.writeBytes r.2.mchbar (o - 0x140000) r.1 }
    else .error .mchbarAccess
  else regWriteBytes s o d

/-! ### Configuration space -/

/-- A Page Request Status register as a number (R162). -/
def PciCaps.status (p : PciCaps) : Nat := 256 * b2n p.stopped + 2 * b2n p.upgri + b2n p.rf

/-- The DWord at a configuration offset (R151 to R166); `none` where the spec describes no register. -/
def cfgDword (s : State) (o : Nat) : Option Nat :=
  let p := s.par
  if o = p.pasidCapOfs then some (p.atsCapOfs % 4096 * 2 ^ 20 + 0x1001B)
  else if o = p.pasidCapOfs + 4 then some (s.pci.pasidControl.toNat * 65536 + 0x1406)
  else if o = p.atsCapOfs then some (p.prsCapOfs % 4096 * 2 ^ 20 + 0x1000F)
  else if o = p.atsCapOfs + 4 then some (s.pci.atsControl.toNat * 65536 + 0x0020)
  else if o = p.prsCapOfs then some 0x00010013
  else if o = p.prsCapOfs + 4 then some (s.pci.status * 65536 + b2n s.pci.pre)
  else if o = p.prsCapOfs + 8 then some 0x8000
  else if o = p.prsCapOfs + 12 then some s.pci.opra.toNat
  else none

/-- A write of the Page Request Control register (R168). -/
def PciCaps.writePre (p : PciCaps) (pre : Bool) : PciCaps :=
  match p.pre, pre with
  | false, true => { p with pre := true, stopped := false, upgri := false, rf := false }
  | true, false => { p with pre := false, stopped := true }
  | false, false => p
  | true, true => p

/-- A write of the Page Request Status register: two bits cleared by writing 1 (R162, R168). -/
def PciCaps.writeStatus (p : PciCaps) (v : Nat) : PciCaps :=
  { p with upgri := p.upgri && nbit v 1 == 0, rf := p.rf && nbit v 0 == 0 }

/-- Write the bits `m` of the DWord at a configuration offset. -/
def cfgWriteDword (s : State) (o : Nat) (m v : DWord) : State :=
  let p := s.par
  if o = p.pasidCapOfs + 4 then
    let old := BitVec.ofNat 32 (s.pci.pasidControl.toNat * 65536)
    { s with pci := { s.pci with pasidControl := BitVec.ofNat 16 ((merge (m &&& 0x00070000) old v).toNat / 65536) } }
  else if o = p.atsCapOfs + 4 then
    let old := BitVec.ofNat 32 (s.pci.atsControl.toNat * 65536)
    { s with pci := { s.pci with atsControl := BitVec.ofNat 16 ((merge (m &&& 0x801F0000) old v).toNat / 65536) } }
  else if o = p.prsCapOfs + 4 then
    let c := if bit m 0 then s.pci.writePre (bit v 0) else s.pci
    { s with pci := c.writeStatus ((m &&& v).toNat / 65536) }
  else if o = p.prsCapOfs + 12 then { s with pci := { s.pci with opra := merge m s.pci.opra v } }
  else s

/-- The bits of a DWord that the byte at an offset covers. -/
def byteMask (o : Nat) : DWord := BitVec.ofNat 32 (255 <<< (8 * (o % 4)))

/-- Read bytes of configuration space (R150). -/
def cfgReadBytes (s : State) (o : Nat) : Nat → Except Refusal (List Byte)
  | 0 => .ok []
  | n + 1 =>
    match cfgDword s (o / 4 * 4), cfgReadBytes s (o + 1) n with
    | some v, .ok bs => .ok (BitVec.ofNat 8 (v >>> (8 * (o % 4))) :: bs)
    | none, _ => .error .unlistedRegister
    | some _, .error r => .error r

/-- Write bytes of configuration space (R150). -/
def cfgWriteBytes (s : State) (o : Nat) : List Byte → Except Refusal State
  | [] => .ok s
  | b :: bs =>
    match cfgDword s (o / 4 * 4) with
    | some _ =>
      cfgWriteBytes (cfgWriteDword s (o / 4 * 4) (byteMask o) (BitVec.ofNat 32 (b.toNat <<< (8 * (o % 4))))) (o + 1) bs
    | none => .error .unlistedRegister

end Sys2Proof.Machine
end

