-- ==== Sys2Proof/Machine/Fxt1.lean ====
section
/-! DEFINITION. FXT1 (spec/46_fxt1_dxt_bc.md R920 to R940). -/
namespace Sys2Proof.Machine

/-- `e5`, `e6`: expansion to 8 bits (R922). -/
def e5 (v : Nat) : Nat := v <<< 3 ||| v >>> 2
def e6 (v : Nat) : Nat := v <<< 2 ||| v >>> 4

/-- An A8R8G8B8 colour, each channel 8 bits (R925). -/
structure Argb8 where
  r : Nat
  g : Nat
  b : Nat
  a : Nat
  deriving DecidableEq, Repr

/-- Black with alpha 0. -/
def transparentBlack : Argb8 := { r := 0, g := 0, b := 0, a := 0 }

/-- `(k0*A + k1*B + c) / d` on each channel (R921). -/
def blend (k0 : Nat) (x : Argb8) (k1 : Nat) (y : Argb8) (c d : Nat) : Argb8 :=
  { r := (k0 * x.r + k1 * y.r + c) / d, g := (k0 * x.g + k1 * y.g + c) / d
    b := (k0 * x.b + k1 * y.b + c) / d, a := (k0 * x.a + k1 * y.a + c) / d }

/-- A colour with another alpha. -/
def Argb8.withAlpha (x : Argb8) (a : Nat) : Argb8 := { x with a := a }

/-- The texel of a colour. -/
def Argb8.texel (x : Argb8) : Texel := { r := u8 x.r, g := u8 x.g, b := u8 x.b, a := u8 x.a }

/-- The R5G5B5 colour in the 15 bits from bit `lo`, with an alpha (R922, R928). -/
def colour555 (v : BitVec 128) (lo a : Nat) : Argb8 :=
  { r := e5 (bits v (lo + 14) (lo + 10)), g := e5 (bits v (lo + 9) (lo + 5)), b := e5 (bits v (lo + 4) lo), a := a }

/-- The same bits as R5G6B5 with the green LSB given (R932). -/
def colour565 (v : BitVec 128) (lo lsb : Nat) : Argb8 :=
  { r := e5 (bits v (lo + 14) (lo + 10)), g := e6 (bits v (lo + 9) (lo + 5) <<< 1 ||| lsb)
    b := e5 (bits v (lo + 4) lo), a := 255 }

/-- CC_HI (R926). -/
def fxt1HiColour (v : BitVec 128) (t : Nat) : Argb8 :=
  let c0 := colour555 v 96 255
  let c1 := colour555 v 111 255
  match bits v (3 * t + 2) (3 * t) with
  | 0 => c0
  | 6 => c1
  | 7 => transparentBlack
  | k => (blend (6 - k) c0 k c1 3 6).withAlpha 255

/-- The 2-bit select of a texel (R928). -/
def fxt1Select (v : BitVec 128) (t : Nat) : Nat := bits v (2 * t + 1) (2 * t)

/-- CC_CHROMA (R928). -/
def fxt1ChromaColour (v : BitVec 128) (t : Nat) : Argb8 := colour555 v (64 + 15 * fxt1Select v t) 255

/-- Four colours interpolated between two (R932, R940). -/
def fxt1Lerp (x y : Argb8) (k : Nat) : Argb8 :=
  match k with
  | 0 => x
  | 1 => blend 2 x 1 y 1 3
  | 2 => blend 1 x 2 y 1 3
  | _ => y

/-- CC_MIXED with Alpha[0] = 0 (R932, R936). -/
def fxt1MixedOpaque (v : BitVec 128) (t : Nat) : Argb8 :=
  let g1 := bits v 125 125
  let g3 := bits v 126 126
  let c0 := colour565 v 64 (bits v 1 1 ^^^ g1)
  let c1 := colour565 v 79 g1
  let c2 := colour565 v 94 (bits v 33 33 ^^^ g3)
  let c3 := colour565 v 109 g3
  (if t < 16 then fxt1Lerp c0 c1 (fxt1Select v t) else fxt1Lerp c2 c3 (fxt1Select v t)).withAlpha 255

/-- CC_MIXED with Alpha[0] = 1 (R934, R936). -/
def fxt1MixedAlpha (v : BitVec 128) (t : Nat) : Argb8 :=
  let x := if t < 16 then colour555 v 64 255 else colour555 v 94 255
  let y := if t < 16 then colour565 v 79 (bits v 125 125) else colour565 v 109 (bits v 126 126)
  match fxt1Select v t with
  | 0 => x
  | 1 => blend 1 x 1 y 0 2
  | 2 => y
  | _ => transparentBlack

/-- CC_MIXED (R936). -/
def fxt1MixedColour (v : BitVec 128) (t : Nat) : Argb8 :=
  if bit v 124 then fxt1MixedAlpha v t else fxt1MixedOpaque v t

/-- CC_ALPHA (R938, R940). -/
def fxt1AlphaColour (v : BitVec 128) (t : Nat) : Argb8 :=
  let c0 := colour555 v 64 (e5 (bits v 113 109))
  let c1 := colour555 v 79 (e5 (bits v 118 114))
  let c2 := colour555 v 94 (e5 (bits v 123 119))
  if bit v 124 then fxt1Lerp (if t < 16 then c0 else c2) c1 (fxt1Select v t)
  else match fxt1Select v t with
    | 0 => c0
    | 1 => c1
    | 2 => c2
    | _ => transparentBlack

/-- `FXT1.DECODE` (R925). -/
def fxt1Colour (v : BitVec 128) (t : Nat) : Argb8 :=
  if bit v 127 then fxt1MixedColour v t
  else if !bit v 126 then fxt1HiColour v t
  else if !bit v 125 then fxt1ChromaColour v t
  else fxt1AlphaColour v t

/-- The texel number of a position in the 8 x 4 block (R924, U23). -/
def fxt1Texel (x y : Nat) : Nat := x / 4 * 16 + 4 * y + x % 4

/-- FXT1.DECODE (R925). -/
def execFxt1 (v : BitVec 128) (t : BitVec 5) (s : State) : Host.Outcome State Fault Refusal :=
  answer s (.texel (fxt1Colour v t.toNat).texel)

/-- FXT1.CC_HI (R926). -/
def execFxt1Hi (v : BitVec 128) (t : BitVec 5) (s : State) : Host.Outcome State Fault Refusal :=
  answer s (.texel (fxt1HiColour v t.toNat).texel)

/-- FXT1.CC_CHROMA (R928). -/
def execFxt1Chroma (v : BitVec 128) (t : BitVec 5) (s : State) : Host.Outcome State Fault Refusal :=
  answer s (.texel (fxt1ChromaColour v t.toNat).texel)

/-- FXT1.CC_MIXED (R936). -/
def execFxt1Mixed (v : BitVec 128) (t : BitVec 5) (s : State) : Host.Outcome State Fault Refusal :=
  answer s (.texel (fxt1MixedColour v t.toNat).texel)

/-- FXT1.CC_ALPHA (R940). -/
def execFxt1Alpha (v : BitVec 128) (t : BitVec 5) (s : State) : Host.Outcome State Fault Refusal :=
  answer s (.texel (fxt1AlphaColour v t.toNat).texel)

end Sys2Proof.Machine
end

