-- ==== Sys2Proof/Machine/Queries.lean ====
section
/-! DEFINITION. Answers to the questions of clients that no row of the opcode table asks: channels of a pixel
(spec/45_surface_formats.md R820 to R822), planes, depth and stencil (R882 to R897), blocks of a compressed surface
(spec/48_astc.md R1088 to R1112, spec/49_surface_layout.md R1206), alignment units (R1285), quilts, 3D surfaces. -/
namespace Sys2Proof.Machine

/-! ### Formats -/

/-- The channels of a pixel, each taking its bits upward from where the one before it ends (R820). -/
def channelsOf : List Nat → Nat → List Nat
  | [], _ => []
  | w :: ws, x => x % 2 ^ w :: channelsOf ws (x / 2 ^ w)

/-- An intensity value in all four channels (R821). -/
def intensityTexel (v : Chan) : Texel := { r := v, g := v, b := v, a := v }

/-- A luminance value in the three colour channels, alpha from a field of its own or its default (R822). -/
def luminanceTexel (v : Chan) (alpha : Option Chan) : Texel :=
  { r := v, g := v, b := v, a := alpha.getD alphaDefault }

/-- The first row of a chroma plane: that of the upper one, or of the lower one (R884). -/
def planeRow (k : ChromaPitch) (yHeight vHeight : Nat) (upper : Bool) : Nat :=
  if upper then (chromaRows k yHeight vHeight).1 else (chromaRows k yHeight vHeight).2

/-- Where a chroma sample lies (R882, R884): the base of its surface, for planes of their own that of the plane, and the
offset from it. `uBelow`: U is directly below Y, so it is the upper plane. Interleaved chroma has one plane, whose sample
is a U and V pair of `bytes` bytes. Separate planes are half-pitch with respect to Y; R882 says that their addresses
"satisfy certain alignment restrictions" and does not state them: the model puts none on `uBase` and `vBase` and computes
the address for every base (DESIGN CHOICE, log entry 30). -/
def chromaSample (l : PlanarLayout) (uBelow planeU : Bool) (x y bytes : Nat) : Nat × Nat :=
  match l with
  | .halfPitch base pitch yH vH => (base, chromaOffset .half pitch (planeRow .half yH vH (uBelow == planeU)) x y bytes)
  | .fullPitch base pitch yH vH => (base, chromaOffset .full pitch (planeRow .full yH vH (uBelow == planeU)) x y bytes)
  | .interleaved base pitch yH => (base, chromaOffset .full pitch (planeRow .full yH 0 true) x y bytes)
  | .separate uBase vBase yPitch => (if planeU then uBase else vBase, chromaOffset .half yPitch 0 x y bytes)

/-- The bits of a depth pixel (R896). -/
def depthBits : DepthFormat → Nat
  | .d32FloatS8X24 => 64
  | .d32Float => 32
  | .d24UnormS8 => 32
  | .d16Unorm => 16

/-- Depth and, where the format has it, stencil of a depth pixel (R896). -/
def depthFields (f : DepthFormat) (x : Nat) : List Nat :=
  let p := x % 2 ^ depthBits f
  match f with
  | .d32FloatS8X24 =>
    [(depthD32S8 (BitVec.ofNat 64 p)).1.toNat, (depthD32S8 (BitVec.ofNat 64 p)).2.toNat]
  | .d32Float => [p]
  | .d24UnormS8 => [(depthD24S8 (BitVec.ofNat 32 p)).1.toNat, (depthD24S8 (BitVec.ofNat 32 p)).2.toNat]
  | .d16Unorm => [p]

/-! ### Elements -/

/-- A block of texels on the three axes, and the bytes of an element. -/
structure BlockSize where
  w : Nat
  h : Nat
  d : Nat
  bytes : Nat
  deriving DecidableEq, Repr

/-- The block of a format in texels, and the bytes of an element (R1206). -/
def FormatClass.block (f : FormatClass) : BlockSize :=
  match f with
  | .plain bytes _ _ => ⟨1, 1, 1, bytes⟩
  | .block64 => ⟨4, 4, 1, 8⟩
  | .block128 => ⟨4, 4, 1, 16⟩
  | .fxt1 => ⟨8, 4, 1, 16⟩
  | .astc bw bh bd => ⟨bw, bh, bd, 16⟩
  | .depth16 => ⟨1, 1, 1, 2⟩
  | .depth bytes => ⟨1, 1, 1, bytes⟩
  | .stencil => ⟨1, 1, 1, 1⟩

/-- The block of a format is one that the spec gives: an ASTC footprint has block sizes of ASTC (R1086, R1091). -/
def FormatClass.stated (f : FormatClass) : Bool :=
  match f with
  | .astc bw bh bd => astcDims bw bh bd
  | .plain _ _ _ => true
  | .block64 => true
  | .block128 => true
  | .fxt1 => true
  | .depth16 => true
  | .depth _ => true
  | .stencil => true

/-- The element of a texel, the texel inside it, and the element's bytes (R1206, R1092; all three axes, R1112). -/
def BlockSize.elementOf (b : BlockSize) (u v r : Nat) : List Nat :=
  [u / b.w, v / b.h, r / b.d, u % b.w, v % b.h, r % b.d, b.bytes]

/-- The same for a format; of an FXT1 block also the number of the texel in it (R924). -/
def elementOf (f : FormatClass) (u v r : Nat) : List Nat :=
  f.block.elementOf u v r ++ if f = .fxt1 then [fxt1Texel (u % 8) (v % 4)] else []

/-- The format has a 3D ASTC footprint (R1083). -/
def FormatClass.astc3D (f : FormatClass) : Bool :=
  match f with
  | .astc bw bh bd => astcDims bw bh bd && decide (1 < bd)
  | .plain _ _ _ => false
  | .block64 => false
  | .block128 => false
  | .fxt1 => false
  | .depth16 => false
  | .depth _ => false
  | .stencil => false

/-- The alignment unit of a surface that is not a tiled resource (R1285, R1092). The rules name the 2D block sizes of ASTC
only; a 3D footprint gets its width and four times its height (DESIGN CHOICE, log entry 32). -/
def FormatClass.unit (f : FormatClass) : Nat × Nat :=
  match f with
  | .plain _ i j => (i, j)
  | .block64 => (4, 4)
  | .block128 => (4, 4)
  | .fxt1 => (8, 4)
  | .astc bw bh _ => (bw, bh * 4)
  | .depth16 => (8, 4)
  | .depth _ => (4, 4)
  | .stencil => (8, 8)

/-! ### ASTC maps -/

/-- The block footprint has block sizes of ASTC (R1086, R1091). -/
def AstcMap.stated (m : AstcMap) : Bool := astcDims m.bw m.bh m.bd

/-- The blocks of a LOD in width and height, and its slabs (R1088). -/
def AstcMap.blocks (m : AstcMap) (l : Nat) : Nat × Nat × Nat :=
  (ceilDiv (lodSize m.width l) m.bw, ceilDiv (lodSize m.height l) m.bh, ceilDiv (lodSize m.depth l) m.bd)

/-- The number of a block in its LOD (R1088); the formula also of a block beyond the LOD (log entry 30). -/
def AstcMap.blockNumber (m : AstcMap) (l bx bY bz : Nat) : Nat := bx + (m.blocks l).1 * (bY + (m.blocks l).2.1 * bz)

/-- Row bytes, rows and slabs of a LOD (R1091). -/
def AstcMap.rowBytes (m : AstcMap) (l : Nat) : Nat := astcBlockRowBytes (lodSize m.width l) m.bw
def AstcMap.rows (m : AstcMap) (l : Nat) : Nat := astcBlockRows (lodSize m.height l) m.bh
def AstcMap.slabs (m : AstcMap) (l : Nat) : Nat := astcBlockSlabs (lodSize m.depth l) m.bd

/-- The padded number of blocks of a LOD (R1091). -/
def AstcMap.paddedBlocks (m : AstcMap) (l : Nat) : Nat := m.rows l * (m.blocks l).1 * m.slabs l

/-- Where a slab of a LOD starts (R1090), printed for LOD 0 to 3. For a slab number at or beyond the slabs of the LOD the
formula is computed (DESIGN CHOICE, log entry 30). -/
def AstcMap.slabOffset (m : AstcMap) (l q : Nat) : Option (Nat × Nat) := astcLodOffset m.rowBytes m.rows m.slabs l q

/-! ### Surfaces -/

/-- A texel of a quilted texture: its slice, and its position there (R1266). -/
def quiltTexel (width height quiltWidth quiltHeight r x y : Nat) : List Nat :=
  [r * quiltWidth * quiltHeight + y / height * quiltWidth + x / width, x % width, y % height]

/-- The offset of a byte of the CCS of a 3D surface, from the sizes of its LODs (R1271, R1274). The shift that adjusts U, V
and R for the control block size is not given: they are taken as already shifted, and LODU and LODV are those of the CCS
itself, its size given in bytes and rows (DESIGN CHOICE, log entry 30). -/
def ccs3DByte (width height i j pitch qpitch lod u v r : Nat) : Nat :=
  let o := lodOffset2D (fun l => (alignTo i (lodExtent width l), alignTo j (lodExtent height l))) lod
  ccs3DOffset pitch qpitch o.1 o.2 u v r

/-! ### The answers -/

/-- An answer of numbers. -/
def giveNumbers (s : State) (ns : List Nat) : State := { s with out := .numbers ns }

/-- `n` free values. -/
def freeNats (s : State) : Nat → List Nat × State
  | 0 => ([], s)
  | n + 1 =>
    let a := freeQ s
    let r := freeNats a.2 n
    (a.1.toNat :: r.1, r.2)

/-- Numbers where the spec states them; else as many free values (log entry 33). -/
def giveStated (s : State) (stated : Bool) (ns : List Nat) : State :=
  if stated then giveNumbers s ns
  else
    let r := freeNats s ns.length
    giveNumbers r.2 r.1

/-- Two numbers that the spec does not state (log entry 33). -/
def freePair (s : State) : State := giveStated s false [0, 0]

/-- The element size with a logarithm. -/
def bpeOfLog : Nat → Option Bpe
  | 0 => some .b8
  | 1 => some .b16
  | 2 => some .b32
  | 3 => some .b64
  | 4 => some .b128
  | _ => none

/-- The depth alignment `k` (R1278): the table's for TileYS and TileYF, 1 for TRMODE NONE. -/
def depthAlign (tiling : Option Bool) (b : Bpe) : Nat :=
  match tiling with
  | none => 1
  | some big => 2 ^ (align3DLog big b).2.2

/-- Depth, aligned depth, and aligned depth in blocks of a LOD (R1271, D46). -/
def depthNumbers (depth : Nat) (tiling : Option Bool) (b : Bpe) (n l : Nat) : List Nat :=
  let d := depth3D depth (depthAlign tiling b) l
  [d.1, d.2, inElements n d.2]

/-- The CCS of a 3D surface as R1274 has it: alignment units, and a pitch of whole TileY tiles (R406). -/
def ccs3DStated (i j pitch : Nat) : Bool := i != 0 && j != 0 && pitch % 128 == 0

/-- An address of a surface, as `answerOffset` gives it: not at an offset of 2^38 or more (R1200, U35). -/
def giveOffset (s : State) (base off : Nat) : Except Refusal State :=
  if off < 2 ^ 38 then .ok { s with out := .address (base + off) } else .error .offsetTooLarge

/-- An offset in a surface where the spec states it; else a free value (log entry 33). -/
def giveAddress (s : State) (stated : Bool) (off : Nat) : Except Refusal State :=
  if stated then giveOffset s 0 off
  else
    let r := freeQ s
    .ok { r.2 with out := .address r.1.toNat }

/-- A stencil value's address (R897); the base of a tiled surface is 4 KB aligned (R402, U1). -/
def stencilAnswer (base pitchTiles x y : Nat) (s : State) : Except Refusal State :=
  if base % 4096 = 0 then giveOffset s base (tiledOffset .w pitchTiles x y) else .error .surfaceMisaligned

/-- The texel at a position of an FXT1 block (R924). -/
def fxt1At (v : BitVec 128) (x y : Nat) (s : State) : State :=
  if x < 8 ∧ y < 4 then { s with out := .texel (fxt1Colour v (fxt1Texel x y)).texel } else freePair s

/-- A texel of a row of one-bit texels (R824). -/
def r1At (row : List Byte) (x : Nat) (s : State) : State :=
  match row[x / 8]? with
  | some b => { s with out := .texel (decodeR1 b (x % 8)) }
  | none => freePair s

/-- The number of samples whose logarithm is asked. -/
def samplesOfLog : Nat → Option Samples
  | 1 => some .s2
  | 2 => some .s4
  | 3 => some .s8
  | 4 => some .s16
  | _ => none

/-- Answer a question that has an answer whatever its operands, in a machine with 3D ASTC formats; one about an address is
answered by `addressAnswer`. -/
def pureAnswer (q : Query) (s : State) : State :=
  match q with
  | .channels ws x => giveNumbers s (channelsOf ws x)
  | .intensity v => { s with out := .texel (intensityTexel v) }
  | .luminance v a => { s with out := .texel (luminanceTexel v a) }
  | .depthPixel f x => giveNumbers s (depthFields f x)
  | .r1Texel row x => r1At row x s
  | .fxt1Texel v x y => fxt1At v x y s
  | .stencilByte _ _ _ _ | .chroma _ _ _ _ _ _ | .ccs3D _ _ _ _ _ _ _ _ _ _ => s
  | .element f u v r => giveStated s f.stated (elementOf f u v r)
  | .alignUnit f => giveStated s f.stated [f.unit.1, f.unit.2]
  | .astcBlock m l bx bY bz =>
    giveStated s m.stated [m.blockNumber l bx bY bz, (m.blocks l).1 * (m.blocks l).2.1 * (m.blocks l).2.2]
  | .astcRows m l => giveStated s m.stated [m.rowBytes l, m.rows l, m.slabs l, m.paddedBlocks l]
  | .astcSlab m l k =>
    match m.slabOffset l k with
    | some o => giveStated s m.stated [o.1, o.2]
    | none => freePair s
  | .mcsBits n =>
    match samplesOfLog n with
    | some k => giveNumbers s [mcsElementBits k]
    | none => freePair s
  | .quiltTexel w h qw qh r x y => giveStated s (w != 0 && h != 0) (quiltTexel w h qw qh r x y)
  | .depth3D d t b n l =>
    match bpeOfLog b with
    | some k => giveNumbers s (depthNumbers d t k n l)
    | none => freePair s

/-- Answer a question about an address in a surface, which may be refused as its operation would be (U1, U35); `none` for
another question. -/
def addressAnswer (q : Query) (s : State) : Option (Except Refusal State) :=
  match q with
  | .stencilByte base pitch x y => some (stencilAnswer base pitch x y s)
  | .chroma l uBelow planeU x y bytes =>
    let c := chromaSample l uBelow planeU x y bytes
    some (giveOffset s c.1 c.2)
  | .ccs3D w h i j pitch qpitch l u v r =>
    some (giveAddress s (ccs3DStated i j pitch) (ccs3DByte w h i j pitch qpitch l u v r))
  | .channels _ _ | .intensity _ | .luminance _ _ | .depthPixel _ _ | .r1Texel _ _ | .fxt1Texel _ _ _
  | .element _ _ _ _ | .alignUnit _ | .astcBlock _ _ _ _ _ | .astcRows _ _ | .astcSlab _ _ _ | .mcsBits _
  | .quiltTexel _ _ _ _ _ _ _ | .depth3D _ _ _ _ _ => none

/-- A question about a surface with a 3D ASTC format (R1080): its elements, its alignment unit, its layout in memory. The
numbers of blocks are those of a file (R1088), which the machine does not sample. -/
def Query.onAstc3D (q : Query) : Bool :=
  match q with
  | .element f _ _ _ => f.astc3D
  | .alignUnit f => f.astc3D
  | .astcRows m _ => (FormatClass.astc m.bw m.bh m.bd).astc3D
  | .astcSlab m _ _ => (FormatClass.astc m.bw m.bh m.bd).astc3D
  | .stencilByte _ _ _ _ | .channels _ _ | .intensity _ | .luminance _ _ | .chroma _ _ _ _ _ _ | .depthPixel _ _
  | .r1Texel _ _ | .fxt1Texel _ _ _ | .astcBlock _ _ _ _ _ | .mcsBits _ | .quiltTexel _ _ _ _ _ _ _
  | .depth3D _ _ _ _ _ | .ccs3D _ _ _ _ _ _ _ _ _ _ => false

/-- Answer a question; one about an address may be refused as its operation would be, and one about a surface with a 3D
ASTC format where there are none (R1080, U32). -/
def answerQuery (q : Query) (s : State) : Except Refusal State :=
  if q.onAstc3D && !s.par.astc3D then .error .astc3DUnsupported
  else (addressAnswer q s).getD (.ok (pureAnswer q s))

end Sys2Proof.Machine
end

