-- ==== Sys2Proof/Machine/Agents.lean ====
section
/-! DEFINITION. What the other agents do to the machine (spec/00_scope.md R6): host accesses through the two BARs,
register and configuration cycles (spec/10_state.md, spec/20_memory.md), context delivery (spec/43_gam_tlb.md R680 to
R684), page responses and the returns from faults (spec/60_exceptions.md R1312 to R1344), resets
(spec/70_reset_and_hazards.md R1380 to R1388). -/
namespace Sys2Proof.Machine

/-! ### The aperture -/

/-- A fence covers an aperture offset (R448). -/
def Fence.covers (f : Fence) (a : Nat) : Bool := f.valid && decide (f.base ≤ a) && decide (a ≤ f.limit)

/-- The walk of a fence (R448). -/
def Fence.walk (f : Fence) : TileWalk := if f.walkY then .y else .x

/-- `GM_Address` of an aperture offset: tiled inside a fence, else linear (R448). A fence without a pitch gives none of
the 32-bit addresses in particular: a free value (log entry 33). The formula is computed for every fence base, aligned to a
tile (R402) or not (DESIGN CHOICE, log entry 30). -/
def apertureAddress (a : Nat) (s : State) : Except Refusal (Nat × State) :=
  match s.fences.filter (fun f => f.covers a) with
  | [] => .ok (a, s)
  | [f] =>
    if f.pitchTiles = 0 then
      let r := freeQ s
      .ok (r.1.toNat % 2 ^ 32, r.2)
    else .ok (fencedAddress f.walk f.base f.pitchTiles a, s)
  | _ :: _ :: _ => .error .fencesOverlap

/-- The addresses of the bytes of an aperture access. -/
def apertureAddresses (a : Nat) : Nat → State → Except Refusal (List Nat × State)
  | 0, s => .ok ([], s)
  | n + 1, s =>
    match apertureAddress a s with
    | .error r => .error r
    | .ok (va, s1) =>
      match apertureAddresses (a + 1) n s1 with
      | .error r => .error r
      | .ok (vas, s2) => .ok (va :: vas, s2)

/-- Runs of consecutive addresses, as first address and length. -/
def runsOf : List Nat → List (Nat × Nat)
  | [] => []
  | x :: xs =>
    match runsOf xs with
    | [] => [(x, 1)]
    | (y, k) :: rs => if y = x + 1 then (x, k + 1) :: rs else (x, 1) :: (y, k) :: rs

/-- A host access of the global space at an address (R214): no engine, so a fault completes as an invalid access
(R1304). The tag is the aperture offset. -/
def hostAccess (op : AccessOp) (va tag : Nat) : MemAccess :=
  { engine := none, client := .other, slice := 0, hdc := 0, space := .virtual, mocs := none, useGgtt := true,
    tileX := false, display := false, va := va, op := op, later := [], around := [], tag := tag }

/-- Bytes `k` to `k + n - 1` of an operation; an atomic is done as a whole. -/
def AccessOp.part (op : AccessOp) (k n : Nat) : AccessOp :=
  match op with
  | .vread _ => .vread n
  | .vfetch _ => .vfetch n
  | .vwrite d => .vwrite ((d.drop k).take n)
  | .vatomic m f => .vatomic m f

/-- The parts of an aperture access, one for each run of consecutive addresses of the global space: an aligned access of 8
bytes or less lies in one row of a tile, and is one part (R202). -/
def apertureParts (op : AccessOp) (a : Nat) : Nat → List (Nat × Nat) → State → Except Refusal State
  | _, [], s => .ok s
  | k, (va, n) :: rs, s =>
    match access s (hostAccess (op.part k n) va (a + k)) with
    | .error r => .error r
    | .ok s1 => apertureParts op a (k + n) rs s1

/-- The runs of consecutive addresses, each cut at 4 KB pages. -/
def runPieces (runs : List (Nat × Nat)) : List (Nat × Nat) := runs.flatMap (fun r => pagePieces (r.2 / 4096 + 2) r.1 r.2)

/-- An operation on runs of the global space: an atomic is one action on all of them (log entry 27). -/
def apertureRuns (op : AccessOp) (a : Nat) (runs : List (Nat × Nat)) (s : State) : Except Refusal State :=
  match op with
  | .vatomic _ _ => atomicAccess s (hostAccess op ((runs.head?.map Prod.fst).getD 0) a) (runPieces runs)
  | .vread _ => apertureParts op a 0 runs s
  | .vfetch _ => apertureParts op a 0 runs s
  | .vwrite _ => apertureParts op a 0 runs s

/-- An access at an aperture offset (R214). What a read returns is in `returns`, as for every translated access. -/
def apertureAccess (s : State) (op : AccessOp) (a : Nat) : Except Refusal State :=
  match apertureAddresses a op.size s with
  | .error r => .error r
  | .ok (vas, s1) => apertureRuns op a (runsOf vas) s1

/-! ### Host accesses -/

/-- What a system address decodes to (R212). -/
inductive Region where
  | aperture (a : Nat)
  | mmio (o : Nat)
  | gttReserved
  | gttAlias (o : Nat)
  | stolen
  | physical
  | absent
  deriving DecidableEq, Repr

/-- `a` lies in `[b, b + k)`. -/
def inside (a b k : Nat) : Bool := decide (b ≤ a) && decide (a < b + k)

/-- The region of an address (R212, R214, R216, R222). Every bound is a multiple of 4 KB (R40, R41, R42), so the bytes of one
page have one region. -/
def regionOf (p : Params) (a : Nat) : Region :=
  if inside a p.gmadrBase p.gmadrSize then .aperture (a - p.gmadrBase)
  else if inside a p.gttmmadrBase 0x200000 then .mmio (a - p.gttmmadrBase)
  else if inside a (p.gttmmadrBase + 0x200000) 0x600000 then .gttReserved
  else if inside a (p.gttmmadrBase + 0x800000) 0x800000 then .gttAlias (a - (p.gttmmadrBase + 0x800000))
  else if a ≥ 2 ^ p.haw then .absent
  else if inside a p.gsmBase p.gsmSize || inside a p.dsmBase p.dsmSize then .stolen
  else .physical

/-- Continue after an action. -/
def andThen (r : Host.Outcome State Fault Refusal) (f : State → Host.Outcome State Fault Refusal) :
    Host.Outcome State Fault Refusal :=
  match r with
  | .next s => f s
  | .fault x => .fault x
  | .refused x => .refused x

/-- The pieces of a host access: with the bases aligned every piece is inside one region. -/
def hostPieces (a n : Nat) : List (Nat × Nat) := pagePieces (n / 4096 + 2) a n

/-- Add to the value of a host read. -/
def State.giveHost (s : State) (bs : List Byte) : State := { s with hostData := s.hostData ++ bs }

/-- A host read inside one page (R212). -/
def hostReadPiece (a n : Nat) (s : State) : Host.Outcome State Fault Refusal :=
  match regionOf s.par a with
  | .aperture o => outcome (apertureAccess s (.vread n) o)
  | .mmio o =>
    match mmioReadBytes s o n with
    | .ok bs => .next (s.giveHost bs)
    | .error r => .refused r
  | .gttReserved => .refused .gttmmadrReserved
  | .gttAlias o =>
    if o + n ≤ s.par.gsmSize then .next (s.giveHost (Memory.readBytes s.mem (s.par.gsmBase + o) n))
    else .refused .ggttBeyondGsm
  | .stolen => .refused .stolenMemory
  | .physical =>
    let r := loadSeen s .host a n
    .next ((noteLines r.2 .host a n).giveHost r.1)
  | .absent => .fault .noSuchAddress

/-- The pieces of a host read. -/
def hostReadPieces : List (Nat × Nat) → State → Host.Outcome State Fault Refusal
  | [], s => .next s
  | (a, n) :: ps, s => andThen (hostReadPiece a n s) (hostReadPieces ps)

/-- A host read (R212). -/
def hostRead (s : State) (a n : Nat) : Host.Outcome State Fault Refusal :=
  hostReadPieces (hostPieces a n) { s with hostData := [] }

/-- A write to system memory by the host or a peer. -/
def systemWrite (a : Nat) (d : List Byte) (s : State) : State :=
  noteLines (storeSeen s .host a d) .host a d.length

/-- A host write inside one page (R212). -/
def hostWritePiece (a : Nat) (d : List Byte) (s : State) : Host.Outcome State Fault Refusal :=
  match regionOf s.par a with
  | .aperture o => outcome (apertureAccess s (.vwrite d) o)
  | .mmio o => outcome (mmioWriteBytes s o d)
  | .gttReserved => .refused .gttmmadrReserved
  | .gttAlias o =>
    if o + d.length ≤ s.par.gsmSize then .next (storeSeen s .walker (s.par.gsmBase + o) d) else .refused .ggttBeyondGsm
  | .stolen => .refused .stolenMemory
  | .physical => .next (systemWrite a d s)
  | .absent => .fault .noSuchAddress

/-- A peer write inside one page: through the aperture (R207, R214), or to system memory, which is no matter of the
graphics device; one to its registers is not supported (R207) and has no effect, and one to the reserved part is refused
(R216, U14). -/
def peerWritePiece (a : Nat) (d : List Byte) (s : State) : Host.Outcome State Fault Refusal :=
  match regionOf s.par a with
  | .aperture o => outcome (apertureAccess s (.vwrite d) o)
  | .mmio _ => .next s
  | .gttReserved => .refused .gttmmadrReserved
  | .gttAlias _ => .next s
  | .stolen => .refused .stolenMemory
  | .physical => .next (systemWrite a d s)
  | .absent => .fault .noSuchAddress

/-- The pieces of a write. -/
def writePieces (f : Nat → List Byte → State → Host.Outcome State Fault Refusal) :
    List (Nat × Nat) → List Byte → State → Host.Outcome State Fault Refusal
  | [], _, s => .next s
  | (a, n) :: ps, d, s => andThen (f a (d.take n) s) (writePieces f ps (d.drop n))

/-- A host write (R212). -/
def hostWrite (s : State) (a : Nat) (d : List Byte) : Host.Outcome State Fault Refusal :=
  writePieces hostWritePiece (hostPieces a d.length) d s

/-- A peer write (R207). -/
def peerWrite (s : State) (a : Nat) (d : List Byte) : Host.Outcome State Fault Refusal :=
  writePieces peerWritePiece (hostPieces a d.length) d s

/-- A locked read-modify-write of the host in system memory: indivisible, on memory itself (R794). -/
def systemAtomic (a n : Nat) (f : RmwFun) (s : State) : State :=
  let old := Memory.readBytes s.mem a n
  let t := noteLines { s with hostData := old } .host a n
  rmwStore t .host a old (rmwBytes n f old)

/-- A locked read-modify-write of the host (R794); through a window of the device it is one action too. The window of its
first byte is that of all its bytes (DESIGN CHOICE, log entry 27: a request stays in one 64-byte line, R7). -/
def hostAtomic (s : State) (a n : Nat) (f : RmwFun) : Host.Outcome State Fault Refusal :=
  match regionOf s.par a with
  | .aperture o => outcome (apertureAccess s (.vatomic n f) o)
  | .physical => .next (systemAtomic a n f s)
  | .mmio _ => andThen (hostRead s a n) (fun t => hostWrite t a (rmwBytes n f t.hostData))
  | .gttAlias _ => andThen (hostRead s a n) (fun t => hostWrite t a (rmwBytes n f t.hostData))
  | .gttReserved => .refused .gttmmadrReserved
  | .stolen => .refused .stolenMemory
  | .absent => .fault .noSuchAddress

/-- A configuration read (R150). -/
def cfgRead (s : State) (o n : Nat) : Host.Outcome State Fault Refusal :=
  match cfgReadBytes s o n with
  | .ok bs => .next { s with hostData := bs }
  | .error r => .refused r

/-! ### Context delivery -/

/-- The programming a delivered descriptor must have (R665, R724, R111, R1348). -/
def deliveryRefusal (p : Params) (c : Ctx) : Option Refusal :=
  if c.advanced then
    if c.faultModel = 0 ∨ c.faultModel = 3 then some .faultModelField
    else if p.gttCacheEnable then some .gttCacheEnabled
    else iommuRefusal c
  else if c.faultModel ≠ 0 then some .faultModelField
  else none

/-- The L3 control table of a context comes back with it (R252). -/
def restoreL3 (s : State) (contextID : BitVec 32) : State :=
  match savedL3 s.l3Saved contextID with
  | some t => { s with l3Control := t }
  | none => s

/-- The registers of a context come back with it: its memory interface control table, on the render engine its L3
control table (R252) and its TR-TT registers (R497). The MMIO offsets of the TR-TT registers address the live copy; with
no context resident on the render engine that is the one the last context left, and what is written there is lost here
(log entry 32). -/
def restoreRegisters (s : State) (e : Engine) (contextID : BitVec 32) : State :=
  let s1 := match savedMocs s.mocsSaved e contextID with
    | some t => setMocs s e t
    | none => s
  if e = .render then restoreL3 { s1 with trtt := savedTrtt s1.trttSaved contextID } contextID else s1

/-- A new context becomes resident on an engine (R680 (ii) to (v), R118, R497, R1352), and what waited is done again. Of an
invalid descriptor R1352 tells "the host": the driver's queue, a DESIGN CHOICE (log entry 32). -/
def makeResident (s : State) (e : Engine) (c : Ctx) : Except Refusal State :=
  let s1 := if c.valid then s else s.post .driver (.invalidDescriptor e)
  let s2 := enterPasid s1 c
  let bad := s2.badContexts.contains c.contextID
  let s3 := s2.setEng e { s2.eng e with ctx := some { c with bad := bad }, run := .running, facts := [],
                                          streamFaultCount := 0 }
  drain ((restoreRegisters s3 e c.contextID).post .commandStreamers (.contextConfirmed e))

/-- Context Launched (R680 steps 3 and 4). Outside a delivery it has no effect. -/
def contextLaunched (s : State) (e : Engine) : Except Refusal State :=
  let d := (s.eng e).desc
  if (s.eng e).run ≠ .switching then .ok s
  else
    let f := BitVec.ofNat 3 (bits d.element 11 9)
    let q := BitVec.ofNat 20 (bits d.pdp0 19 0)
    let c := ctxOfDescriptor d (if bit d.element 3 then .absent f q else findIommu s.iommu f q)
    match deliveryRefusal s.par c with
    | some r => .error r
    | none => makeResident s e c

/-- A write of an engine's own message register: a message bit takes effect with its mask bit (R682, U41). R682
describes single-bit writes: one that carries both messages is Context Available and then Context Launched, in the same
write (DESIGN CHOICE, log entry 26). -/
def csMessage (s : State) (e : Engine) (v : DWord) : Except Refusal State :=
  let s1 := if bit v 0 && bit v 16 then contextAvailable s e else s
  if bit v 1 && bit v 17 then contextLaunched s1 e else .ok s1

/-- A command streamer writes a descriptor DWord (R60, R680 step 2): only its own engine's. R60 names only the time between
Context Receive Ready and Context Launched: a write at any other time is stored too (DESIGN CHOICE, log entry 26). -/
def csDescriptorDword (s : State) (e f : Engine) (k : Nat) (v : DWord) : State :=
  let x := s.eng e
  if e ≠ f then s
  else s.setEng e { x with desc := x.desc.setQword (k / 2) (setHalf (x.desc.qword (k / 2)) (k % 2) v) }

/-- A command streamer's register write (R36(e), R62, R228): as the host's, but for its messages, its descriptor
registers and the MCHBAR window. -/
def csRegWrite (s : State) (e : Engine) (o : Nat) (v : DWord) : Except Refusal State :=
  if o = messageOffset e then csMessage s e v
  else match mmioReg s.par (o / 4 * 4) with
    | .mchbar => .ok s
    | .descriptor f k => .ok (csDescriptorDword s e f k v)
    | r => regWrite s r 0xFFFFFFFF v

/-- A command streamer's register read (R36(e), R228). -/
def csRegRead (s : State) (o : Nat) : Except Refusal State :=
  match mmioReg s.par (o / 4 * 4) with
  | .mchbar => .ok { s with hostData := zeros 4 }
  | r =>
    match regRead s r with
    | .ok v => .ok { s with hostData := leBytes 4 v.toNat }
    | .error x => .error x

/-- The command streamer writes all five descriptor registers (R680 step 2), at any time (DESIGN CHOICE, log entry 26). -/
def csDescriptor (s : State) (e : Engine) (d : Descriptor) : State := s.setEng e { s.eng e with desc := d }

/-- MI_update_GTT (R539): the entry of a page of the global space. -/
def csUpdateGtt (s : State) (va : Nat) (pte : QWord) : Except Refusal State :=
  if va ≥ 2 ^ 32 then .error .vaOutOfRange
  else if va / 4096 ≥ s.par.gsmSize / 8 then .error .ggttBeyondGsm
  else .ok (memWriteQ s (s.par.gsmBase + 8 * (va / 4096)) pte)

/-! ### Termination -/

/-- The engine runs no more, whatever it waited for (R1344 step 4). -/
def takeOut (s : State) (e : Engine) : State :=
  (unblock (wipeHdcOf (leaveEngine (abandonWaiting s e) e true) e) e).setRun e .idle

/-- Take a context out of one engine if it is resident there. -/
def takeOutOf (contextID : BitVec 32) (s : State) (e : Engine) : State :=
  match (s.eng e).ctx with
  | none => s
  | some c => if c.contextID = contextID then takeOut s e else s

/-- The five engines in table order. -/
def allEngines : List Engine := [.render, .vcs0, .vcs1, .vecs, .bcs]

/-- A context is resident on some engine. -/
def isResident (s : State) (contextID : BitVec 32) : Bool :=
  allEngines.any (fun e => ((s.eng e).ctx.map (fun c => c.contextID == contextID)).getD false)

/-- The LAST request of a context that is resident nowhere (R1344 case 2). Its earlier requests were sent, so its page
requests are enabled (R111). It names no engine: after a reset of the engine that faulted there is no new record of that
engine (R1384). That GAM sends it in no engine's name is the model's (DESIGN CHOICE, log entry 32). -/
def lastForAbsent (s : State) (contextID : BitVec 32) : State :=
  match s.outstanding.find? (fun r => r.contextID == contextID) with
  | none => s
  | some r => sendLastRequest s none r.pasid contextID true

/-- A context is gone: nothing is remembered of it, so a new context with its ID starts as one that never ran (DESIGN
CHOICE, log entry 18). -/
def forgetContext (s : State) (contextID : BitVec 32) : State :=
  { s with
    outstanding := s.outstanding.filter (fun q => q.contextID ≠ contextID)
    badContexts := s.badContexts.filter (fun k => k != contextID)
    awayContexts := s.awayContexts.filter (fun x => x.contextID != contextID)
    failedContexts := s.failedContexts.filter (fun k => k != contextID)
    trttSaved := s.trttSaved.filter (fun p => p.1 != contextID)
    mocsSaved := s.mocsSaved.filter (fun p => p.1.2 != contextID)
    l3Saved := s.l3Saved.filter (fun p => p.1 != contextID) }

/-- Terminate a context (R1344 step 4): pending while its LAST request is. -/
def terminate (s : State) (contextID : BitVec 32) : Except Refusal State :=
  let s0 := forgetAway s contextID
  let s1 := if isResident s0 contextID then allEngines.foldl (takeOutOf contextID) s0 else lastForAbsent s0 contextID
  drain (if lastSent s1 contextID true then s1.post .scheduler (.terminationPending contextID)
    else (forgetContext s1 contextID).post .scheduler (.terminationComplete contextID))

/-! ### Page responses -/

/-- The success code of a page response; every other code is a failure (R1318). PRESUMED 0: log entry 14. -/
def responseSuccess : BitVec 4 := 0

/-- The record with a PRG Index. -/
def findRequest (s : State) (prg : Nat) : Option PageRequest := s.outstanding.find? (fun r => r.prgIndex == prg)

/-- A LAST request is answered: the scheduler hears that the faults are serviced (R1340), unless a response for the context
has failed (R1336); or that the termination is complete, with every record of the context gone (R1344). -/
def lastAnswered (s : State) (r : PageRequest) : State :=
  if r.terminating then (forgetContext s r.contextID).post .scheduler (.terminationComplete r.contextID)
  else if s.failedContexts.contains r.contextID then s
  else s.post .scheduler (.faultsServiced r.contextID)

/-- No later halt request of the record's engine is outstanding: it is the one the engine waits for, if it is halted. An
older record outlives an engine reset, and its answer resumes nothing (R1386). -/
def isNewestHalt (s : State) (r : PageRequest) : Bool :=
  s.outstanding.all (fun q => q.engine != r.engine || q.mode != .halt || decide (q.prgIndex ≤ r.prgIndex))

/-- The engine that a halt request stopped runs again (R1316). -/
def resumeHalted (s : State) (e : Option Engine) : State :=
  match e with
  | some e => returnFromHalt s e
  | none => s

/-- A successful page response for a PASID (R1318). -/
def responseOk (s : State) (pasid : BitVec 20) (r : PageRequest) : Except Refusal State :=
  let s1 := shootDownFaulted (removeRequest s r.prgIndex) pasid r.page
  if r.last then .ok (lastAnswered s1 r)
  else match r.mode with
    | .halt => drain (if isNewestHalt s r then resumeHalted s1 r.engine else s1)
    | .stream => drain s1
    | .hang => drain s1

/-- An abandoned request completes as an invalid access (R1336); one stopped in a TR-TT table read goes on with an arbitrary
value, and the engine needs a reset (R1330). -/
def abandonFailed (s : State) (w : Waiter) : Except Refusal State :=
  if w.table.isSome then attempt (loseTable s .render) w.table w else .ok (completeInvalid s w.req)

/-- Abandon requests one by one. -/
def abandonAllFailed : List Waiter → State → Except Refusal State
  | [], s => .ok s
  | w :: ws, s =>
    match abandonFailed s w with
    | .ok s1 => abandonAllFailed ws s1
    | .error r => .error r

/-- A response failure meets one engine (R1336). -/
def failEngine (pasid : BitVec 20) (s : State) (e : Engine) : Except Refusal State :=
  match (s.eng e).ctx with
  | none => .ok s
  | some c =>
    if c.advanced && c.pasid == pasid then
      let s1 := rememberFailed (markBad s e) c.contextID
      let s2 := s1.post .scheduler (.contextError e pasid c.contextID .responseFailure)
      abandonAllFailed (s2.waiting.filter (fun w => w.isOf e)) (returnFromHalt (dropWaiting s2 e) e)
    else .ok s

/-- It meets every engine in turn. -/
def failEngines (pasid : BitVec 20) : List Engine → State → Except Refusal State
  | [], s => .ok s
  | e :: es, s =>
    match failEngine pasid s e with
    | .ok s1 => failEngines pasid es s1
    | .error r => .error r

/-- The contexts of a PASID that are resident nowhere (R1336): those with an outstanding request, with the engine that
faulted, and every other that has left its engine, with that engine. -/
def absentContexts (s : State) (pasid : BitVec 20) : List (Option Engine × BitVec 32) :=
  let asking := ((s.outstanding.filter (fun r => r.pasid == pasid && !r.terminating && !isResident s r.contextID)).map
    (fun r => (r.engine, r.contextID))).eraseDups
  let away := (s.awayContexts.filter (fun x => x.pasid == pasid && !isResident s x.contextID)).map
    (fun x => (some x.engine, x.contextID))
  asking ++ away.filter (fun x => !(asking.map Prod.snd).contains x.2)

/-- They are reported bad too, and remembered (R1336). -/
def reportAbsent (pasid : BitVec 20) : List (Option Engine × BitVec 32) → State → State
  | [], s => s
  | (e, k) :: xs, s =>
    reportAbsent pasid xs ((rememberFailed (rememberBad s k) k).post .scheduler (.contextError e pasid k .responseFailure))

/-- The answered record and the records of the PASID go, with their faulted TLB records (R1336, R734). -/
def removeFailed (s : State) (pasid : BitVec 20) (prg : Nat) : State :=
  let gone (q : PageRequest) : Bool := q.prgIndex == prg || (!q.last && q.pasid == pasid)
  (s.outstanding.filter gone).foldl (fun t q => shootDownFaulted t q.pasid q.page)
    { s with outstanding := s.outstanding.filter (fun q => !gone q) }

/-- A response failure for a PASID (R1318, R1336): a LAST request of a context in termination still completes it
(R1344). -/
def responseFailed (s : State) (pasid : BitVec 20) (r : PageRequest) : Except Refusal State :=
  let s1 := { s with pci := { s.pci with rf := true } }
  if r.last && r.terminating then .ok (lastAnswered (removeRequest s1 r.prgIndex) r)
  else
    let s2 := removeFailed (reportAbsent pasid (absentContexts s1 pasid) s1) pasid r.prgIndex
    match failEngines pasid allEngines s2 with
    | .ok s3 => drain s3
    | .error x => .error x

/-- A page response (R1318), matched by its PRG Index: one that matches no outstanding request sets UPGRI and is
ignored. -/
def pageResponse (s : State) (pasid : BitVec 20) (prg : Nat) (rc : BitVec 4) : Except Refusal State :=
  match findRequest s prg with
  | none => .ok { s with pci := { s.pci with upgri := true } }
  | some r => if rc = responseSuccess then responseOk s pasid r else responseFailed s pasid r

/-! ### The return from a hang -/

/-- The request of an engine that has faulted, and the others. -/
def takeFaulted : List Waiter → Engine → Option Waiter × List Waiter
  | [], _ => (none, [])
  | w :: ws, e =>
    if w.faulted && w.isOf e then (some w, ws)
    else
      let r := takeFaulted ws e
      (r.1, w :: r.2)

/-- THE RETURN FROM A HANG: `FaultContinue` (R1312, R33). The faulted access completes as an invalid access, the engine
runs, and the requests behind it are made; once a TR-TT table read has been lost the engine still needs a reset (R505,
R1330). An engine that is not hung is not concerned. -/
def faultContinue (s : State) (e : Engine) : Except Refusal State :=
  match (s.eng e).run with
  | .hung _ held =>
    if held then
      let s1 := s.setEng e { s.eng e with run := .running, needsReset := (s.eng e).lostTable }
      let r := takeFaulted s.waiting e
      let s2 := { s1 with waiting := r.2 }
      drain (match r.1 with
        | some w => completeInvalid s2 w.req
        | none => s2)
    else drain (s.setRun e .running)
  | .halted _ => .ok s
  | .idle => .ok s
  | .running => .ok s
  | .switching => .ok s

/-! ### Resets -/

/-- An unknown value for the five descriptor registers (R1381). -/
def freeDescriptor (s : State) : Descriptor × State :=
  let a := freeQ s
  let b := freeQ a.2
  let c := freeQ b.2
  let d := freeQ c.2
  let e := freeQ d.2
  ({ element := a.1, pdp0 := b.1, pdp1 := c.1, pdp2 := d.1, pdp3 := e.1 }, e.2)

/-- The context of a reset engine is taken out without being saved (R1384, R1388, R1390). That it was marked bad is then
forgotten, of which the spec says nothing, and it is then away like a switched-out one (DESIGN CHOICE, log entry 25). -/
def dropContext (s : State) (e : Engine) : State :=
  match (s.eng e).ctx with
  | none => s
  | some c => noteAway (leavePasid s c) e c

/-- The part of the HDC port and of TR-TT that a reset of the render engine clears (R1381, R114). It also ends an invalidation
handshake in progress and forgets its acknowledgements, of which R114 and R1381 say nothing (DESIGN CHOICE, log entry
25). -/
def resetRenderParts (s : State) : State :=
  { s with hdcPorts := [], hdcQueue := [], hdcResponses := [], hdcInvalidating := false, hdcAcks := [], trtt := .reset,
           reg4DFC := 0, nullTileCount := 0 }

/-- What every reset does to one engine (R1381, R1384): its caches keep contents that may still be used until
software invalidates them. -/
def resetEngine (s : State) (e : Engine) : State :=
  let s1 := unblock (dropContext (dropMessages s e) e) e
  let d := freeDescriptor s1
  let x := d.2.eng e
  let s2 := d.2.setEng e { x with desc := d.1, ctx := none, run := .idle, needsReset := false, lostTable := false,
                                  streamFaultCount := 0 }
  if e = .render then resetRenderParts s2 else s2

/-- The host has not yet read every page request of an engine (R1386). -/
def untaken (s : State) (e : Engine) : Bool := s.outstanding.any (fun r => r.engine == some e && !r.taken)

/-- `EngineReset(e)` (R1384): not complete while the host has not read the engine's page requests (R1386). -/
def beginReset (s : State) (e : Engine) : State :=
  let s1 := resetEngine s e
  s1.setEng e { s1.eng e with resetPending := untaken s1 e }

/-- `EngineReset(e)`; what other engines wait for is done again. -/
def engineReset (s : State) (e : Engine) : Except Refusal State := drain (beginReset s e)

/-- Arbitrary DWords. -/
def freeDwords (s : State) : Nat → List DWord × State
  | 0 => ([], s)
  | n + 1 =>
    let b := freeBytes s 4
    let r := freeDwords b.2 n
    (BitVec.ofNat 32 (leNat b.1) :: r.1, r.2)

/-- The registers outside any engine that FLR and bus reset put at their reset values (R1381). -/
def resetRegisters (s : State) : State :=
  { s with
    par := { s.par with mmio64KEnable := false, privatePat := privatePatReset }
    nullTileCount := 0
    reg404C := 0
    reg4A30 := 0
    reg4DFC := 0
    adNonWB := 0
    reg40E0 := 0
    reg40E4 := 0
    reg40E8 := 0
    reg40EC := 0
    l3Control := l3Reset
    gamt := gamtReset
    fences := List.replicate 16 .off
    pci := .reset }

/-- Device reset (R1380, R1381, R1385): an engine reset of all five; outstanding page requests, memory, BARs and IOMMU
structures are kept; the palette is unspecified. -/
def flr (s : State) : Except Refusal State :=
  let s1 := resetRegisters (allEngines.foldl beginReset s)
  let s2 := { s1 with missBlocked := none }
  let r := freeDwords s2 256
  drain { r.2 with palette := r.1 }

/-- The IOMMU's enables are reset, its tables in memory are kept (R1381). -/
def IommuEntry.busReset (x : IommuEntry) : IommuEntry :=
  { x with sre := false, ere := false, paside := false, preCtx := false }

/-- Bus reset (R1380, R1381, R1387): everything but memory, what is held in memory, and the platform's parameters. Whether
events that nobody has read yet, and the contexts that are resident nowhere with their marks, bad or failed, outlive it
neither R1381 nor R180 says: they go. The two BARs, which R180 and R1382 call unspecified, hold what the host last programmed
(DESIGN CHOICE, log entry 25). -/
def busReset (s : State) : State :=
  let r := freeDwords (allEngines.foldl resetEngine s) 256
  { State.reset with
    inbox := s.inbox
    mem := s.mem
    oldBytes := s.oldBytes
    cachedLines := s.cachedLines
    par := { s.par with mmio64KEnable := false, privatePat := privatePatReset }
    engines := r.2.engines.map (fun x => { x with facts := [], resetPending := false })
    iommu := s.iommu.map IommuEntry.busReset
    trttSaved := s.trttSaved
    mocsSaved := s.mocsSaved
    l3Saved := s.l3Saved
    mchbar := s.mchbar
    palette := r.1
    returns := s.returns
    freeCount := r.2.freeCount }

/-! ### Events -/

/-- A pending reset of an engine completes when the host has read its page requests (R1386). -/
def finishResets (s : State) : State :=
  allEngines.foldl (fun t e => t.setEng e { t.eng e with resetPending := (t.eng e).resetPending && untaken t e }) s

/-- The host reads and empties an event queue (R1346). A reset that completes lets a delivery go on. -/
def takeEvents (s : State) (d : EventDest) : Except Refusal State :=
  match d with
  | .driver => .ok { s with events := { s.events with driver := [] } }
  | .scheduler => .ok { s with events := { s.events with scheduler := [] } }
  | .commandStreamers => .ok { s with events := { s.events with commandStreamers := [] } }
  | .iommu =>
    drain (finishResets { s with events := { s.events with iommu := [] },
                                 outstanding := s.outstanding.map (fun r => { r with taken := true }) })

/-! ### Other inputs -/

/-- Replace the IOMMU entry of a PASID of a function. -/
def setIommuEntry : List IommuEntry → IommuEntry → List IommuEntry
  | [], x => [x]
  | y :: ys, x => if y.function = x.function ∧ y.pasid = x.pasid then x :: ys else y :: setIommuEntry ys x

/-- Host software changes the 64 KB enable, which is fixed while a context is resident (R106), and the GTT-cache enable,
which no advanced context may meet (U11). -/
def setControls (s : State) (mmio64K gttCache : Bool) : Except Refusal State :=
  if gttCache && allEngines.any (fun e => (((s.eng e).ctx).map Ctx.advanced).getD false) then .error .gttCacheEnabled
  else .ok { s with par := { s.par with
    mmio64KEnable := if anyResident s then s.par.mmio64KEnable else mmio64K, gttCacheEnable := gttCache } }

/-- Program the two BARs: the low address bits of a BAR are not there, so its base is naturally aligned (R40, R41). -/
def setBars (s : State) (gmadr gttmmadr : Nat) : State :=
  { s with par := { s.par with
    gmadrBase := gmadr / s.par.gmadrSize * s.par.gmadrSize, gttmmadrBase := gttmmadr / 0x1000000 * 0x1000000 } }

/-- Device 0 sets the contents of MCHBAR registers (R104, R132). -/
def setMchbar (s : State) (k : Nat) (d : List Byte) : State :=
  { s with mchbar := Memory.writeBytes s.mchbar k (d.take (0x8000 - k)) }

/-- Perform one agent's action. `op` is performed by `step`, which decodes it. -/
def applyInput (i : Input) (s : State) : Host.Outcome State Fault Refusal :=
  match i with
  | .op _ => .next s
  | .access a => outcome (access s a)
  | .hostRead a n => hostRead s a n
  | .hostWrite a d => hostWrite s a d
  | .hostAtomic a n f => hostAtomic s a n f
  | .peerWrite a d => peerWrite s a d
  | .csRegWrite e o v => outcome (csRegWrite s e o v)
  | .csRegRead _ o => outcome (csRegRead s o)
  | .csDescriptor e d => .next (csDescriptor s e d)
  | .csUpdateGtt va pte => outcome (csUpdateGtt s va pte)
  | .cfgRead o n => cfgRead s o n
  | .cfgWrite o n v => outcome (cfgWriteBytes s o (leBytes n v))
  | .setFence i f => .next { s with fences := s.fences.set i.toNat f }
  | .setIommu x => .next { s with iommu := setIommuEntry s.iommu x }
  | .setTypes ts cd => .next (if anyResident s then s else { s with par := { s.par with effTypes := ts, cd := cd } })
  | .setPrivatePat ts => .next (if anyResident s then s else { s with par := { s.par with privatePat := ts } })
  | .setControls k g => outcome (setControls s k g)
  | .setBars a b => .next (setBars s a b)
  | .loadPalette i v => .next { s with palette := s.palette.set i.toNat v }
  | .setMchbar k d => .next (setMchbar s k d)
  | .pageResponse pasid prg rc => outcome (pageResponse s pasid prg rc)
  | .faultContinue e => outcome (faultContinue s e)
  | .engineReset e => outcome (engineReset s e)
  | .flr => outcome (flr s)
  | .busReset => .next (busReset s)
  | .takeEvents d => outcome (takeEvents s d)
  | .auxSample a b => outcome (auxSample s none a b false)
  | .query q => outcome (answerQuery q s)
  | .switchOut e => .next (switchOut s e)
  | .terminate k => outcome (terminate s k)
  | .flushCache c => .next (flushCache s c)
  | .invalidateCache c => .next (invalidateCache s c)
  | .flushLlc => .next (flushLlc s)
  | .hostFlush => .next (hostFlush s)
  | .invalidationWait => .next ((performHeld s).post .iommu .invalidationWaited)

end Sys2Proof.Machine
end

