-- ==== Sys2Proof/Machine/Atomics.lean ====
section
/-! DEFINITION. The atomic operations for page-table updates (spec/44_atomics.md R750 to R788). -/
namespace Sys2Proof.Machine

/-- The physical address of the entry an atomic is aimed at: 8-byte aligned and below `2^HAW` (R750, R751; log entry
13). -/
def atomicTarget (s : State) (addr : BitVec 64) : Nat := addr.toNat / 8 * 8 % 2 ^ s.par.haw

/-- An atomic on the QWord at `addr`: the old and the new value are answered (R750, R752). -/
def execAtomic (f : QWord → QWord) (addr : BitVec 64) (s : State) : Host.Outcome State Fault Refusal :=
  let r := atomicRmwQ s (atomicTarget s addr) f
  answer r.2 (.qword r.1.1 r.1.2)

/-- Atomic_Page_update_0000, opcode 0xC0 (R760): I = 0, WP = 0, EA = 0, W = 0. -/
def execPageUpdate0000 (addr : BitVec 64) (s : State) : Host.Outcome State Fault Refusal :=
  execAtomic (pageUpdate false false false false) addr s

/-- Atomic_Page_update_0001, opcode 0xC1 (R761): I = 0, WP = 0, EA = 0, W = 1. -/
def execPageUpdate0001 (addr : BitVec 64) (s : State) : Host.Outcome State Fault Refusal :=
  execAtomic (pageUpdate false false false true) addr s

/-- Atomic_Page_update_0010, opcode 0xC2 (R762): I = 0, WP = 0, EA = 1, W = 0. -/
def execPageUpdate0010 (addr : BitVec 64) (s : State) : Host.Outcome State Fault Refusal :=
  execAtomic (pageUpdate false false true false) addr s

/-- Atomic_Page_update_0011, opcode 0xC3 (R763): I = 0, WP = 0, EA = 1, W = 1. -/
def execPageUpdate0011 (addr : BitVec 64) (s : State) : Host.Outcome State Fault Refusal :=
  execAtomic (pageUpdate false false true true) addr s

/-- Atomic_Page_update_0100, opcode 0xC4 (R764): I = 0, WP = 1, EA = 0, W = 0. -/
def execPageUpdate0100 (addr : BitVec 64) (s : State) : Host.Outcome State Fault Refusal :=
  execAtomic (pageUpdate false true false false) addr s

/-- Atomic_Page_update_0101, opcode 0xC5 (R765): I = 0, WP = 1, EA = 0, W = 1. -/
def execPageUpdate0101 (addr : BitVec 64) (s : State) : Host.Outcome State Fault Refusal :=
  execAtomic (pageUpdate false true false true) addr s

/-- Atomic_Page_update_0110, opcode 0xC6 (R766): I = 0, WP = 1, EA = 1, W = 0. -/
def execPageUpdate0110 (addr : BitVec 64) (s : State) : Host.Outcome State Fault Refusal :=
  execAtomic (pageUpdate false true true false) addr s

/-- Atomic_Page_update_0111, opcode 0xC7 (R767): I = 0, WP = 1, EA = 1, W = 1. -/
def execPageUpdate0111 (addr : BitVec 64) (s : State) : Host.Outcome State Fault Refusal :=
  execAtomic (pageUpdate false true true true) addr s

/-- Atomic_Page_update_1000, opcode 0xC8 (R768): I = 1, WP = 0, EA = 0, W = 0. -/
def execPageUpdate1000 (addr : BitVec 64) (s : State) : Host.Outcome State Fault Refusal :=
  execAtomic (pageUpdate true false false false) addr s

/-- Atomic_Page_update_1001, opcode 0xC9 (R769): I = 1, WP = 0, EA = 0, W = 1. -/
def execPageUpdate1001 (addr : BitVec 64) (s : State) : Host.Outcome State Fault Refusal :=
  execAtomic (pageUpdate true false false true) addr s

/-- Atomic_Page_update_1010, opcode 0xCA (R770): I = 1, WP = 0, EA = 1, W = 0. -/
def execPageUpdate1010 (addr : BitVec 64) (s : State) : Host.Outcome State Fault Refusal :=
  execAtomic (pageUpdate true false true false) addr s

/-- Atomic_Page_update_1011, opcode 0xCB (R771): I = 1, WP = 0, EA = 1, W = 1. -/
def execPageUpdate1011 (addr : BitVec 64) (s : State) : Host.Outcome State Fault Refusal :=
  execAtomic (pageUpdate true false true true) addr s

/-- Atomic_Page_update_1100, opcode 0xCC (R772): I = 1, WP = 1, EA = 0, W = 0. -/
def execPageUpdate1100 (addr : BitVec 64) (s : State) : Host.Outcome State Fault Refusal :=
  execAtomic (pageUpdate true true false false) addr s

/-- Atomic_Page_update_1101, opcode 0xCD (R773): I = 1, WP = 1, EA = 0, W = 1. -/
def execPageUpdate1101 (addr : BitVec 64) (s : State) : Host.Outcome State Fault Refusal :=
  execAtomic (pageUpdate true true false true) addr s

/-- Atomic_Page_update_1110, opcode 0xCE (R774): I = 1, WP = 1, EA = 1, W = 0. -/
def execPageUpdate1110 (addr : BitVec 64) (s : State) : Host.Outcome State Fault Refusal :=
  execAtomic (pageUpdate true true true false) addr s

/-- Atomic_Page_update_1111, opcode 0xCF (R775): I = 1, WP = 1, EA = 1, W = 1. -/
def execPageUpdate1111 (addr : BitVec 64) (s : State) : Host.Outcome State Fault Refusal :=
  execAtomic (pageUpdate true true true true) addr s

/-- Atomic_A_update_000 (R781). -/
def execAUpdate000 (addr : BitVec 64) (s : State) : Host.Outcome State Fault Refusal :=
  execAtomic accessedUpdate addr s

/-- Atomic_A_update_001 (R782). -/
def execAUpdate001 (addr : BitVec 64) (s : State) : Host.Outcome State Fault Refusal :=
  execAtomic accessedUpdate addr s

/-- Atomic_A_update_010 (R783). -/
def execAUpdate010 (addr : BitVec 64) (s : State) : Host.Outcome State Fault Refusal :=
  execAtomic accessedUpdate addr s

/-- Atomic_A_update_011 (R784). -/
def execAUpdate011 (addr : BitVec 64) (s : State) : Host.Outcome State Fault Refusal :=
  execAtomic accessedUpdate addr s

/-- Atomic_A_update_100 (R785). -/
def execAUpdate100 (addr : BitVec 64) (s : State) : Host.Outcome State Fault Refusal :=
  execAtomic accessedUpdate addr s

/-- Atomic_AD_update_101 (R786). -/
def execAdUpdate101 (addr : BitVec 64) (s : State) : Host.Outcome State Fault Refusal :=
  execAtomic accessedDirtyUpdate addr s

/-- Atomic_AD_update_110 (R787). -/
def execAdUpdate110 (addr : BitVec 64) (s : State) : Host.Outcome State Fault Refusal :=
  execAtomic accessedDirtyUpdate addr s

/-- Atomic_AD_update_111 (R788). -/
def execAdUpdate111 (addr : BitVec 64) (s : State) : Host.Outcome State Fault Refusal :=
  execAtomic accessedDirtyUpdate addr s

end Sys2Proof.Machine
end

