-- ==== Sys2Proof/Machine/Partitions.lean ====
section
/-! DEFINITION. What BC6H and BC7 share: partitions, weights and index packing (spec/47_bc6h_bc7.md R1018, R1022,
R1052 to R1057). -/
namespace Sys2Proof.Machine

/-- One partition: hexadecimal digit `n` from the left is the line of texel `n`; the fix-up texels of lines 1 and 2. -/
structure Partition where
  lines : Nat
  fix1 : Nat
  fix2 : Nat
  deriving DecidableEq, Repr

/-- The line of a texel. -/
def Partition.line (p : Partition) (n : Nat) : Nat := nbits p.lines (4 * (15 - n) + 3) (4 * (15 - n))

/-- The one "partition" of the ONE modes (R1055). -/
def partitionOne : Partition := { lines := 0, fix1 := 0, fix2 := 0 }

/-- Partitions 0 to 15 (R1056). -/
def partitionsTwo0 : List Partition :=
  [⟨0x0011001100110011, 15, 0⟩, ⟨0x0001000100010001, 15, 0⟩, ⟨0x0111011101110111, 15, 0⟩, ⟨0x0001001100110111, 15, 0⟩,
   ⟨0x0000000100010011, 15, 0⟩, ⟨0x0011011101111111, 15, 0⟩, ⟨0x0001001101111111, 15, 0⟩, ⟨0x0000000100110111, 15, 0⟩,
   ⟨0x0000000000010011, 15, 0⟩, ⟨0x0011011111111111, 15, 0⟩, ⟨0x0000000101111111, 15, 0⟩, ⟨0x0000000000010111, 15, 0⟩,
   ⟨0x0001011111111111, 15, 0⟩, ⟨0x0000000011111111, 15, 0⟩, ⟨0x0000111111111111, 15, 0⟩, ⟨0x0000000000001111, 15, 0⟩]

/-- Partitions 16 to 31 (R1056). -/
def partitionsTwo1 : List Partition :=
  [⟨0x0000100011101111, 15, 0⟩, ⟨0x0111000100000000, 2, 0⟩, ⟨0x0000000010001110, 8, 0⟩, ⟨0x0111001100010000, 2, 0⟩,
   ⟨0x0011000100000000, 2, 0⟩, ⟨0x0000100011001110, 8, 0⟩, ⟨0x0000000010001100, 8, 0⟩, ⟨0x0111001100110001, 15, 0⟩,
   ⟨0x0011000100010000, 2, 0⟩, ⟨0x0000100010001100, 8, 0⟩, ⟨0x0110011001100110, 2, 0⟩, ⟨0x0011011001101100, 2, 0⟩,
   ⟨0x0001011111101000, 8, 0⟩, ⟨0x0000111111110000, 8, 0⟩, ⟨0x0111000110001110, 2, 0⟩, ⟨0x0011100110011100, 2, 0⟩]

/-- Partitions 32 to 47 (R1056). -/
def partitionsTwo2 : List Partition :=
  [⟨0x0101010101010101, 15, 0⟩, ⟨0x0000111100001111, 15, 0⟩, ⟨0x0101101001011010, 6, 0⟩, ⟨0x0011001111001100, 8, 0⟩,
   ⟨0x0011110000111100, 2, 0⟩, ⟨0x0101010110101010, 8, 0⟩, ⟨0x0110100101101001, 15, 0⟩, ⟨0x0101101010100101, 15, 0⟩,
   ⟨0x0111001111001110, 2, 0⟩, ⟨0x0001001111001000, 8, 0⟩, ⟨0x0011001001001100, 2, 0⟩, ⟨0x0011101111011100, 2, 0⟩,
   ⟨0x0110100110010110, 2, 0⟩, ⟨0x0011110011000011, 15, 0⟩, ⟨0x0110011010011001, 15, 0⟩, ⟨0x0000011001100000, 6, 0⟩]

/-- Partitions 48 to 63 (R1056). -/
def partitionsTwo3 : List Partition :=
  [⟨0x0100111001000000, 6, 0⟩, ⟨0x0010011100100000, 2, 0⟩, ⟨0x0000001001110010, 6, 0⟩, ⟨0x0000010011100100, 8, 0⟩,
   ⟨0x0110110010010011, 15, 0⟩, ⟨0x0011011011001001, 15, 0⟩, ⟨0x0110001110011100, 2, 0⟩, ⟨0x0011100111000110, 2, 0⟩,
   ⟨0x0110110011001001, 15, 0⟩, ⟨0x0110001100111001, 15, 0⟩, ⟨0x0111111010000001, 15, 0⟩, ⟨0x0001100011100111, 15, 0⟩,
   ⟨0x0000111100110011, 15, 0⟩, ⟨0x0011001111110000, 2, 0⟩, ⟨0x0010001011101110, 2, 0⟩, ⟨0x0100010001110111, 15, 0⟩]

/-- The 64 partitions (R1056). -/
def partitionsTwo : List Partition := partitionsTwo0 ++ partitionsTwo1 ++ partitionsTwo2 ++ partitionsTwo3

/-- Partitions 0 to 15 (R1057). -/
def partitionsThree0 : List Partition :=
  [⟨0x0011001102212222, 3, 15⟩, ⟨0x0001001122112221, 3, 8⟩, ⟨0x0000200122112211, 15, 8⟩, ⟨0x0222002200110111, 15, 3⟩,
   ⟨0x0000000011221122, 8, 15⟩, ⟨0x0011001100220022, 3, 15⟩, ⟨0x0022002211111111, 15, 3⟩, ⟨0x0011001122112211, 15, 8⟩,
   ⟨0x0000000011112222, 8, 15⟩, ⟨0x0000111111112222, 8, 15⟩, ⟨0x0000111122222222, 6, 15⟩, ⟨0x0012001200120012, 6, 15⟩,
   ⟨0x0112011201120112, 6, 15⟩, ⟨0x0122012201220122, 5, 15⟩, ⟨0x0011011211221222, 3, 15⟩, ⟨0x0011200122002220, 3, 8⟩]

/-- Partitions 16 to 31 (R1057). -/
def partitionsThree1 : List Partition :=
  [⟨0x0001001101121122, 3, 15⟩, ⟨0x0111001120012200, 3, 8⟩, ⟨0x0000112211221122, 8, 15⟩, ⟨0x0022002200221111, 15, 3⟩,
   ⟨0x0111011102220222, 3, 15⟩, ⟨0x0001000122212221, 3, 8⟩, ⟨0x0000001101220122, 6, 15⟩, ⟨0x0000110022102210, 10, 8⟩,
   ⟨0x0122012200110000, 5, 3⟩, ⟨0x0012001211222222, 8, 15⟩, ⟨0x0110122112210110, 8, 6⟩, ⟨0x0000011012211221, 6, 10⟩,
   ⟨0x0022110211020022, 8, 15⟩, ⟨0x0110011020022222, 5, 15⟩, ⟨0x0011012201220011, 15, 10⟩, ⟨0x0000200022112221, 15, 8⟩]

/-- Partitions 32 to 47 (R1057). -/
def partitionsThree2 : List Partition :=
  [⟨0x0000000211221222, 8, 15⟩, ⟨0x0222002200120011, 15, 3⟩, ⟨0x0011001200220222, 3, 15⟩, ⟨0x0120012001200120, 5, 10⟩,
   ⟨0x0000111122220000, 6, 10⟩, ⟨0x0120120120120120, 10, 8⟩, ⟨0x0120201212010120, 8, 9⟩, ⟨0x0011220011220011, 15, 10⟩,
   ⟨0x0011112222000011, 15, 6⟩, ⟨0x0101010122222222, 3, 15⟩, ⟨0x0000000021212121, 15, 8⟩, ⟨0x0022112200221122, 5, 15⟩,
   ⟨0x0022001100220011, 15, 3⟩, ⟨0x0220122102201221, 15, 6⟩, ⟨0x0101222222220101, 15, 6⟩, ⟨0x0000212121212121, 15, 8⟩]

/-- Partitions 48 to 63 (R1057). -/
def partitionsThree3 : List Partition :=
  [⟨0x0101010101012222, 3, 15⟩, ⟨0x0222011102220111, 15, 3⟩, ⟨0x0002111200021112, 5, 15⟩, ⟨0x0000211221122112, 5, 15⟩,
   ⟨0x0222011101110222, 5, 15⟩, ⟨0x0002111211120002, 8, 15⟩, ⟨0x0110011001102222, 5, 15⟩, ⟨0x0000000021122112, 10, 15⟩,
   ⟨0x0110011022222222, 5, 15⟩, ⟨0x0022001100110022, 10, 15⟩, ⟨0x0022112211220022, 8, 15⟩, ⟨0x0000000000002112, 13, 15⟩,
   ⟨0x0002000100020001, 15, 3⟩, ⟨0x0222122202221222, 12, 15⟩, ⟨0x0101222222222222, 3, 15⟩, ⟨0x0111201122012220, 3, 8⟩]

/-- The 64 partitions (R1057). -/
def partitionsThree : List Partition := partitionsThree0 ++ partitionsThree1 ++ partitionsThree2 ++ partitionsThree3

/-- The weights of 2-, 3- and 4-bit indices (R1022, R1054). -/
def weights2 : List Nat := [0, 21, 43, 64]
def weights3 : List Nat := [0, 9, 18, 27, 37, 46, 55, 64]
def weights4 : List Nat := [0, 4, 9, 13, 17, 21, 26, 30, 34, 38, 43, 47, 51, 55, 60, 64]

/-- The weight of an index of `b` bits (R1022, R1054). -/
def weightOf (b i : Nat) : Nat :=
  match b with
  | 2 => weights2.getD i 0
  | 3 => weights3.getD i 0
  | _ => weights4.getD i 0

/-- The fix-up texels of a partition of `lines` lines (R1052): each has one bit less. -/
def fixups (lines : Nat) (p : Partition) : List Nat :=
  match lines with
  | 1 => [0]
  | 2 => [0, p.fix1]
  | _ => [0, p.fix1, p.fix2]

/-- The index of texel `n`, of `b` bits, in a field from bit `start` (R1018, R1052). -/
def packedIndex (v : BitVec 128) (start b : Nat) (fix : List Nat) (n : Nat) : Nat :=
  let pos := start + b * n - (fix.filter (fun f => decide (f < n))).length
  let w := if fix.contains n then b - 1 else b
  bits v (pos + w - 1) pos

end Sys2Proof.Machine
end

