-- ==== Sys2Proof/Machine/Bc6h.lean ====
section
/-! DEFINITION. BC6H (spec/47_bc6h_bc7.md R1000 to R1025). -/
namespace Sys2Proof.Machine

/-- A colour channel. -/
inductive Bc6Chan where
  | r | g | b
  deriving DecidableEq, Repr

/-- An endpoint (R1002). -/
inductive Bc6End where
  | w | x | y | z
  deriving DecidableEq, Repr

/-- Bits `hi:lo` of the block are bits of a field, from its bit `first` up (R1002). -/
structure Bc6Piece where
  ch : Bc6Chan
  ep : Bc6End
  hi : Nat
  lo : Nat
  first : Nat
  deriving DecidableEq, Repr

/-- The delta bits of the channels (R1001). -/
structure Bc6Delta where
  r : Nat
  g : Nat
  b : Nat
  deriving DecidableEq, Repr

/-- A mode: one or two lines, endpoint precision, delta bits, and where its fields lie (R1001). -/
structure Bc6Mode where
  two : Bool
  precision : Nat
  delta : Option Bc6Delta
  pieces : List Bc6Piece
  deriving DecidableEq, Repr

/-- Mode 0 (R1003). -/
def bc6Mode0 : Bc6Mode :=
  { two := true, precision := 10, delta := some ⟨5, 5, 5⟩, pieces := [
    ⟨.g, .y, 2, 2, 4⟩, ⟨.b, .y, 3, 3, 4⟩, ⟨.b, .z, 4, 4, 4⟩, ⟨.r, .w, 14, 5, 0⟩, ⟨.g, .w, 24, 15, 0⟩,
    ⟨.b, .w, 34, 25, 0⟩, ⟨.r, .x, 39, 35, 0⟩, ⟨.g, .z, 40, 40, 4⟩, ⟨.g, .y, 44, 41, 0⟩, ⟨.g, .x, 49, 45, 0⟩,
    ⟨.b, .z, 50, 50, 0⟩, ⟨.g, .z, 54, 51, 0⟩, ⟨.b, .x, 59, 55, 0⟩, ⟨.b, .z, 60, 60, 1⟩, ⟨.b, .y, 64, 61, 0⟩,
    ⟨.r, .y, 69, 65, 0⟩, ⟨.b, .z, 70, 70, 2⟩, ⟨.r, .z, 75, 71, 0⟩, ⟨.b, .z, 76, 76, 3⟩] }

/-- Mode 1 (R1004). -/
def bc6Mode1 : Bc6Mode :=
  { two := true, precision := 7, delta := some ⟨6, 6, 6⟩, pieces := [
    ⟨.g, .y, 2, 2, 5⟩, ⟨.g, .z, 3, 3, 4⟩, ⟨.g, .z, 4, 4, 5⟩, ⟨.r, .w, 11, 5, 0⟩, ⟨.b, .z, 12, 12, 0⟩,
    ⟨.b, .z, 13, 13, 1⟩, ⟨.b, .y, 14, 14, 4⟩, ⟨.g, .w, 21, 15, 0⟩, ⟨.b, .y, 22, 22, 5⟩, ⟨.b, .z, 23, 23, 2⟩,
    ⟨.g, .y, 24, 24, 4⟩, ⟨.b, .w, 31, 25, 0⟩, ⟨.b, .z, 32, 32, 3⟩, ⟨.b, .z, 33, 33, 5⟩, ⟨.b, .z, 34, 34, 4⟩,
    ⟨.r, .x, 40, 35, 0⟩, ⟨.g, .y, 44, 41, 0⟩, ⟨.g, .x, 50, 45, 0⟩, ⟨.g, .z, 54, 51, 0⟩, ⟨.b, .x, 60, 55, 0⟩,
    ⟨.b, .y, 64, 61, 0⟩, ⟨.r, .y, 70, 65, 0⟩, ⟨.r, .z, 76, 71, 0⟩] }

/-- Mode 2 (R1005). -/
def bc6Mode2 : Bc6Mode :=
  { two := true, precision := 11, delta := some ⟨5, 4, 4⟩, pieces := [
    ⟨.r, .w, 14, 5, 0⟩, ⟨.g, .w, 24, 15, 0⟩, ⟨.b, .w, 34, 25, 0⟩, ⟨.r, .x, 39, 35, 0⟩, ⟨.r, .w, 40, 40, 10⟩,
    ⟨.g, .y, 44, 41, 0⟩, ⟨.g, .x, 48, 45, 0⟩, ⟨.g, .w, 49, 49, 10⟩, ⟨.b, .z, 50, 50, 0⟩, ⟨.g, .z, 54, 51, 0⟩,
    ⟨.b, .x, 58, 55, 0⟩, ⟨.b, .w, 59, 59, 10⟩, ⟨.b, .z, 60, 60, 1⟩, ⟨.b, .y, 64, 61, 0⟩, ⟨.r, .y, 69, 65, 0⟩,
    ⟨.b, .z, 70, 70, 2⟩, ⟨.r, .z, 75, 71, 0⟩, ⟨.b, .z, 76, 76, 3⟩] }

/-- Mode 3 (R1006). -/
def bc6Mode3 : Bc6Mode :=
  { two := true, precision := 11, delta := some ⟨4, 5, 4⟩, pieces := [
    ⟨.r, .w, 14, 5, 0⟩, ⟨.g, .w, 24, 15, 0⟩, ⟨.b, .w, 34, 25, 0⟩, ⟨.r, .x, 38, 35, 0⟩, ⟨.r, .w, 39, 39, 10⟩,
    ⟨.g, .z, 40, 40, 4⟩, ⟨.g, .y, 44, 41, 0⟩, ⟨.g, .x, 49, 45, 0⟩, ⟨.g, .w, 50, 50, 10⟩, ⟨.g, .z, 54, 51, 0⟩,
    ⟨.b, .x, 58, 55, 0⟩, ⟨.b, .w, 59, 59, 10⟩, ⟨.b, .z, 60, 60, 1⟩, ⟨.b, .y, 64, 61, 0⟩, ⟨.r, .y, 68, 65, 0⟩,
    ⟨.b, .z, 69, 69, 0⟩, ⟨.b, .z, 70, 70, 2⟩, ⟨.r, .z, 74, 71, 0⟩, ⟨.g, .y, 75, 75, 4⟩, ⟨.b, .z, 76, 76, 3⟩] }

/-- Mode 4 (R1007). -/
def bc6Mode4 : Bc6Mode :=
  { two := true, precision := 11, delta := some ⟨4, 4, 5⟩, pieces := [
    ⟨.r, .w, 14, 5, 0⟩, ⟨.g, .w, 24, 15, 0⟩, ⟨.b, .w, 34, 25, 0⟩, ⟨.r, .x, 38, 35, 0⟩, ⟨.r, .w, 39, 39, 10⟩,
    ⟨.b, .y, 40, 40, 4⟩, ⟨.g, .y, 44, 41, 0⟩, ⟨.g, .x, 48, 45, 0⟩, ⟨.g, .w, 49, 49, 10⟩, ⟨.b, .z, 50, 50, 0⟩,
    ⟨.g, .z, 54, 51, 0⟩, ⟨.b, .x, 59, 55, 0⟩, ⟨.b, .w, 60, 60, 10⟩, ⟨.b, .y, 64, 61, 0⟩, ⟨.r, .y, 68, 65, 0⟩,
    ⟨.b, .z, 69, 69, 1⟩, ⟨.b, .z, 70, 70, 2⟩, ⟨.r, .z, 74, 71, 0⟩, ⟨.b, .z, 75, 75, 4⟩, ⟨.b, .z, 76, 76, 3⟩] }

/-- Mode 5 (R1008). -/
def bc6Mode5 : Bc6Mode :=
  { two := true, precision := 9, delta := some ⟨5, 5, 5⟩, pieces := [
    ⟨.r, .w, 13, 5, 0⟩, ⟨.b, .y, 14, 14, 4⟩, ⟨.g, .w, 23, 15, 0⟩, ⟨.g, .y, 24, 24, 4⟩, ⟨.b, .w, 33, 25, 0⟩,
    ⟨.b, .z, 34, 34, 4⟩, ⟨.r, .x, 39, 35, 0⟩, ⟨.g, .z, 40, 40, 4⟩, ⟨.g, .y, 44, 41, 0⟩, ⟨.g, .x, 49, 45, 0⟩,
    ⟨.b, .z, 50, 50, 0⟩, ⟨.g, .z, 54, 51, 0⟩, ⟨.b, .x, 59, 55, 0⟩, ⟨.b, .z, 60, 60, 1⟩, ⟨.b, .y, 64, 61, 0⟩,
    ⟨.r, .y, 69, 65, 0⟩, ⟨.b, .z, 70, 70, 2⟩, ⟨.r, .z, 75, 71, 0⟩, ⟨.b, .z, 76, 76, 3⟩] }

/-- Mode 6 (R1009). -/
def bc6Mode6 : Bc6Mode :=
  { two := true, precision := 8, delta := some ⟨6, 5, 5⟩, pieces := [
    ⟨.r, .w, 12, 5, 0⟩, ⟨.g, .z, 13, 13, 4⟩, ⟨.b, .y, 14, 14, 4⟩, ⟨.g, .w, 22, 15, 0⟩, ⟨.b, .z, 23, 23, 2⟩,
    ⟨.g, .y, 24, 24, 4⟩, ⟨.b, .w, 32, 25, 0⟩, ⟨.b, .z, 33, 33, 3⟩, ⟨.b, .z, 34, 34, 4⟩, ⟨.r, .x, 40, 35, 0⟩,
    ⟨.g, .y, 44, 41, 0⟩, ⟨.g, .x, 49, 45, 0⟩, ⟨.b, .z, 50, 50, 0⟩, ⟨.g, .z, 54, 51, 0⟩, ⟨.b, .x, 59, 55, 0⟩,
    ⟨.b, .z, 60, 60, 1⟩, ⟨.b, .y, 64, 61, 0⟩, ⟨.r, .y, 70, 65, 0⟩, ⟨.r, .z, 76, 71, 0⟩] }

/-- Mode 7 (R1010). -/
def bc6Mode7 : Bc6Mode :=
  { two := true, precision := 8, delta := some ⟨5, 6, 5⟩, pieces := [
    ⟨.r, .w, 12, 5, 0⟩, ⟨.b, .z, 13, 13, 0⟩, ⟨.b, .y, 14, 14, 4⟩, ⟨.g, .w, 22, 15, 0⟩, ⟨.g, .y, 23, 23, 5⟩,
    ⟨.g, .y, 24, 24, 4⟩, ⟨.b, .w, 32, 25, 0⟩, ⟨.g, .z, 33, 33, 5⟩, ⟨.b, .z, 34, 34, 4⟩, ⟨.r, .x, 39, 35, 0⟩,
    ⟨.g, .z, 40, 40, 4⟩, ⟨.g, .y, 44, 41, 0⟩, ⟨.g, .x, 50, 45, 0⟩, ⟨.g, .z, 54, 51, 0⟩, ⟨.b, .x, 59, 55, 0⟩,
    ⟨.b, .z, 60, 60, 1⟩, ⟨.b, .y, 64, 61, 0⟩, ⟨.r, .y, 69, 65, 0⟩, ⟨.b, .z, 70, 70, 2⟩, ⟨.r, .z, 75, 71, 0⟩,
    ⟨.b, .z, 76, 76, 3⟩] }

/-- Mode 8 (R1011). -/
def bc6Mode8 : Bc6Mode :=
  { two := true, precision := 8, delta := some ⟨5, 5, 6⟩, pieces := [
    ⟨.r, .w, 12, 5, 0⟩, ⟨.b, .z, 13, 13, 1⟩, ⟨.b, .y, 14, 14, 4⟩, ⟨.g, .w, 22, 15, 0⟩, ⟨.b, .y, 23, 23, 5⟩,
    ⟨.g, .y, 24, 24, 4⟩, ⟨.b, .w, 32, 25, 0⟩, ⟨.b, .z, 33, 33, 5⟩, ⟨.b, .z, 34, 34, 4⟩, ⟨.r, .x, 39, 35, 0⟩,
    ⟨.g, .z, 40, 40, 4⟩, ⟨.g, .y, 44, 41, 0⟩, ⟨.g, .x, 49, 45, 0⟩, ⟨.b, .z, 50, 50, 0⟩, ⟨.g, .z, 54, 51, 0⟩,
    ⟨.b, .x, 60, 55, 0⟩, ⟨.b, .y, 64, 61, 0⟩, ⟨.r, .y, 69, 65, 0⟩, ⟨.b, .z, 70, 70, 2⟩, ⟨.r, .z, 75, 71, 0⟩,
    ⟨.b, .z, 76, 76, 3⟩] }

/-- Mode 9 (R1012). -/
def bc6Mode9 : Bc6Mode :=
  { two := true, precision := 6, delta := none, pieces := [
    ⟨.r, .w, 10, 5, 0⟩, ⟨.g, .z, 11, 11, 4⟩, ⟨.b, .z, 12, 12, 0⟩, ⟨.b, .z, 13, 13, 1⟩, ⟨.b, .y, 14, 14, 4⟩,
    ⟨.g, .w, 20, 15, 0⟩, ⟨.g, .y, 21, 21, 5⟩, ⟨.b, .y, 22, 22, 5⟩, ⟨.b, .z, 23, 23, 2⟩, ⟨.g, .y, 24, 24, 4⟩,
    ⟨.b, .w, 30, 25, 0⟩, ⟨.g, .z, 31, 31, 5⟩, ⟨.b, .z, 32, 32, 3⟩, ⟨.b, .z, 33, 33, 5⟩, ⟨.b, .z, 34, 34, 4⟩,
    ⟨.r, .x, 40, 35, 0⟩, ⟨.g, .y, 44, 41, 0⟩, ⟨.g, .x, 50, 45, 0⟩, ⟨.g, .z, 54, 51, 0⟩, ⟨.b, .x, 60, 55, 0⟩,
    ⟨.b, .y, 64, 61, 0⟩, ⟨.r, .y, 70, 65, 0⟩, ⟨.r, .z, 76, 71, 0⟩] }

/-- Mode 10 (R1013). -/
def bc6Mode10 : Bc6Mode :=
  { two := false, precision := 10, delta := none, pieces := [
    ⟨.r, .w, 14, 5, 0⟩, ⟨.g, .w, 24, 15, 0⟩, ⟨.b, .w, 34, 25, 0⟩, ⟨.r, .x, 44, 35, 0⟩, ⟨.g, .x, 54, 45, 0⟩,
    ⟨.b, .x, 64, 55, 0⟩] }

/-- Mode 11 (R1014). -/
def bc6Mode11 : Bc6Mode :=
  { two := false, precision := 11, delta := some ⟨9, 9, 9⟩, pieces := [
    ⟨.r, .w, 14, 5, 0⟩, ⟨.g, .w, 24, 15, 0⟩, ⟨.b, .w, 34, 25, 0⟩, ⟨.r, .x, 43, 35, 0⟩, ⟨.r, .w, 44, 44, 10⟩,
    ⟨.g, .x, 53, 45, 0⟩, ⟨.g, .w, 54, 54, 10⟩, ⟨.b, .x, 63, 55, 0⟩, ⟨.b, .w, 64, 64, 10⟩] }

/-- Mode 12 (R1015). -/
def bc6Mode12 : Bc6Mode :=
  { two := false, precision := 12, delta := some ⟨8, 8, 8⟩, pieces := [
    ⟨.r, .w, 14, 5, 0⟩, ⟨.g, .w, 24, 15, 0⟩, ⟨.b, .w, 34, 25, 0⟩, ⟨.r, .x, 42, 35, 0⟩, ⟨.r, .w, 43, 43, 11⟩,
    ⟨.r, .w, 44, 44, 10⟩, ⟨.g, .x, 52, 45, 0⟩, ⟨.g, .w, 53, 53, 11⟩, ⟨.g, .w, 54, 54, 10⟩, ⟨.b, .x, 62, 55, 0⟩,
    ⟨.b, .w, 63, 63, 11⟩, ⟨.b, .w, 64, 64, 10⟩] }

/-- Mode 13 (R1016). -/
def bc6Mode13 : Bc6Mode :=
  { two := false, precision := 16, delta := some ⟨4, 4, 4⟩, pieces := [
    ⟨.r, .w, 14, 5, 0⟩, ⟨.g, .w, 24, 15, 0⟩, ⟨.b, .w, 34, 25, 0⟩, ⟨.r, .x, 38, 35, 0⟩, ⟨.r, .w, 39, 39, 15⟩,
    ⟨.r, .w, 40, 40, 14⟩, ⟨.r, .w, 41, 41, 13⟩, ⟨.r, .w, 42, 42, 12⟩, ⟨.r, .w, 43, 43, 11⟩,
    ⟨.r, .w, 44, 44, 10⟩, ⟨.g, .x, 48, 45, 0⟩, ⟨.g, .w, 49, 49, 15⟩, ⟨.g, .w, 50, 50, 14⟩, ⟨.g, .w, 51, 51, 13⟩,
    ⟨.g, .w, 52, 52, 12⟩, ⟨.g, .w, 53, 53, 11⟩, ⟨.g, .w, 54, 54, 10⟩, ⟨.b, .x, 58, 55, 0⟩, ⟨.b, .w, 59, 59, 15⟩,
    ⟨.b, .w, 60, 60, 14⟩, ⟨.b, .w, 61, 61, 13⟩, ⟨.b, .w, 62, 62, 12⟩, ⟨.b, .w, 63, 63, 11⟩, ⟨.b, .w, 64, 64, 10⟩] }

/-- The delta bits of a channel. -/
def Bc6Delta.of (d : Bc6Delta) : Bc6Chan → Nat
  | .r => d.r
  | .g => d.g
  | .b => d.b

/-- A field, assembled from its pieces (R1002). -/
def bc6Field (v : BitVec 128) (ps : List Bc6Piece) (ch : Bc6Chan) (ep : Bc6End) : Nat :=
  ps.foldl (fun acc p => if p.ch = ch ∧ p.ep = ep then acc + bits v p.hi p.lo <<< p.first else acc) 0

/-- A value of `n` bits, sign-extended or zero-extended. -/
def extendTo (signed : Bool) (n v : Nat) : Int := if signed then signExt v n else ((v % 2 ^ n : Nat) : Int)

/-- An endpoint before unquantisation (R1019, R1020): deltas added to `w` in 16-bit arithmetic, the sum reduced to
the precision. -/
def bc6Endpoint (m : Bc6Mode) (signed : Bool) (v : BitVec 128) (ch : Bc6Chan) (ep : Bc6End) : Int :=
  let w := extendTo signed m.precision (bc6Field v m.pieces ch .w)
  match ep, m.delta with
  | .w, _ => w
  | ep, none => extendTo signed m.precision (bc6Field v m.pieces ch ep)
  | ep, some d =>
    let sum := (w + signExt (bc6Field v m.pieces ch ep) (d.of ch)) % 65536
    extendTo signed m.precision sum.toNat

/-- `unqU` (R1021). -/
def unqU (e p : Nat) : Nat :=
  if p = 16 then e else if e = 0 then 0 else if e = 2 ^ p - 1 then 0xFFFF else ((e <<< 16) + 0x8000) >>> p

/-- The magnitude of `unqS` (R1021). -/
def unqMagnitude (a p : Nat) : Nat :=
  if p = 16 then a else if a = 0 then 0 else if a ≥ 2 ^ (p - 1) - 1 then 0x7FFF else ((a <<< 15) + 0x4000) >>> (p - 1)

/-- `unqS` (R1021). -/
def unqS (e : Int) (p : Nat) : Int := if e < 0 then -(unqMagnitude e.natAbs p : Int) else unqMagnitude e.natAbs p

/-- Unquantisation (R1021). -/
def unquantize (signed : Bool) (e : Int) (p : Nat) : Int := if signed then unqS e p else unqU e.toNat p

/-- `fin` (R1023): the 16 bits of a half-precision float. -/
def bc6Finish (signed : Bool) (v : Int) : BitVec 16 :=
  if signed then
    (if v < 0 then BitVec.ofNat 16 (0x8000 ||| (v.natAbs * 31) >>> 5) else BitVec.ofNat 16 ((v.natAbs * 31) >>> 5))
  else BitVec.ofNat 16 ((v.toNat * 31) >>> 6)

/-- One channel of a texel (R1022, R1023): `a` and `b` are the endpoints of its line, `i` its index. -/
def bc6Chan (m : Bc6Mode) (signed : Bool) (v : BitVec 128) (ch : Bc6Chan) (a b : Bc6End) (i : Nat) : Chan :=
  let k := weightOf (if m.two then 3 else 4) i
  let ea := unquantize signed (bc6Endpoint m signed v ch a) m.precision
  let eb := unquantize signed (bc6Endpoint m signed v ch b) m.precision
  .half (bc6Finish signed ((ea * (64 - k : Nat) + eb * k + 32) / 64))

/-- A texel of a block in a mode (R1018, R1024, R1025). -/
def bc6Texel (m : Bc6Mode) (v : BitVec 128) (n : Pos) (signed : Bool) : Texel :=
  let t := texelNumber n
  let p := if m.two then partitionsTwo.getD (bits v 81 77) partitionOne else partitionOne
  let i := if m.two then packedIndex v 82 3 (fixups 2 p) t else packedIndex v 65 4 (fixups 1 p) t
  let a : Bc6End := if p.line t = 0 then .w else .y
  let b : Bc6End := if p.line t = 0 then .x else .z
  { r := bc6Chan m signed v .r a b i, g := bc6Chan m signed v .g a b i, b := bc6Chan m signed v .b a b i
    a := alphaDefault }

/-- Undefined mode values "return zero in the RGB channels" (R1001). -/
def bc6Undefined : Texel := { r := .half 0, g := .half 0, b := .half 0, a := alphaDefault }

/-- The mode of a block (R1001). -/
def bc6ModeOf (v : BitVec 128) : Option Bc6Mode :=
  match bits v 1 0 with
  | 0 => some bc6Mode0
  | 1 => some bc6Mode1
  | _ =>
    match bits v 4 0 with
    | 0b00010 => some bc6Mode2
    | 0b00110 => some bc6Mode3
    | 0b01010 => some bc6Mode4
    | 0b01110 => some bc6Mode5
    | 0b10010 => some bc6Mode6
    | 0b10110 => some bc6Mode7
    | 0b11010 => some bc6Mode8
    | 0b11110 => some bc6Mode9
    | 0b00011 => some bc6Mode10
    | 0b00111 => some bc6Mode11
    | 0b01011 => some bc6Mode12
    | 0b01111 => some bc6Mode13
    | _ => none

/-- `BC6H.DECODE` (R1025). -/
def bc6hDecoded (v : BitVec 128) (n : Pos) (signed : Bool) : Texel :=
  match bc6ModeOf v with
  | some m => bc6Texel m v n signed
  | none => bc6Undefined

/-- BC6H.DECODE (R1025). -/
def execBc6h (v : BitVec 128) (n : Pos) (signed : Bool) (s : State) : Host.Outcome State Fault Refusal :=
  answer s (.texel (bc6hDecoded v n signed))

/-- BC6H.MODE0 (R1003, R1025). -/
def execBc6hMode0 (v : BitVec 128) (n : Pos) (signed : Bool) (s : State) : Host.Outcome State Fault Refusal :=
  answer s (.texel (bc6Texel bc6Mode0 v n signed))

/-- BC6H.MODE1 (R1004, R1025). -/
def execBc6hMode1 (v : BitVec 128) (n : Pos) (signed : Bool) (s : State) : Host.Outcome State Fault Refusal :=
  answer s (.texel (bc6Texel bc6Mode1 v n signed))

/-- BC6H.MODE2 (R1005, R1025). -/
def execBc6hMode2 (v : BitVec 128) (n : Pos) (signed : Bool) (s : State) : Host.Outcome State Fault Refusal :=
  answer s (.texel (bc6Texel bc6Mode2 v n signed))

/-- BC6H.MODE3 (R1006, R1025). -/
def execBc6hMode3 (v : BitVec 128) (n : Pos) (signed : Bool) (s : State) : Host.Outcome State Fault Refusal :=
  answer s (.texel (bc6Texel bc6Mode3 v n signed))

/-- BC6H.MODE4 (R1007, R1025). -/
def execBc6hMode4 (v : BitVec 128) (n : Pos) (signed : Bool) (s : State) : Host.Outcome State Fault Refusal :=
  answer s (.texel (bc6Texel bc6Mode4 v n signed))

/-- BC6H.MODE5 (R1008, R1025). -/
def execBc6hMode5 (v : BitVec 128) (n : Pos) (signed : Bool) (s : State) : Host.Outcome State Fault Refusal :=
  answer s (.texel (bc6Texel bc6Mode5 v n signed))

/-- BC6H.MODE6 (R1009, R1025). -/
def execBc6hMode6 (v : BitVec 128) (n : Pos) (signed : Bool) (s : State) : Host.Outcome State Fault Refusal :=
  answer s (.texel (bc6Texel bc6Mode6 v n signed))

/-- BC6H.MODE7 (R1010, R1025). -/
def execBc6hMode7 (v : BitVec 128) (n : Pos) (signed : Bool) (s : State) : Host.Outcome State Fault Refusal :=
  answer s (.texel (bc6Texel bc6Mode7 v n signed))

/-- BC6H.MODE8 (R1011, R1025). -/
def execBc6hMode8 (v : BitVec 128) (n : Pos) (signed : Bool) (s : State) : Host.Outcome State Fault Refusal :=
  answer s (.texel (bc6Texel bc6Mode8 v n signed))

/-- BC6H.MODE9 (R1012, R1025). -/
def execBc6hMode9 (v : BitVec 128) (n : Pos) (signed : Bool) (s : State) : Host.Outcome State Fault Refusal :=
  answer s (.texel (bc6Texel bc6Mode9 v n signed))

/-- BC6H.MODE10 (R1013, R1025). -/
def execBc6hMode10 (v : BitVec 128) (n : Pos) (signed : Bool) (s : State) : Host.Outcome State Fault Refusal :=
  answer s (.texel (bc6Texel bc6Mode10 v n signed))

/-- BC6H.MODE11 (R1014, R1025). -/
def execBc6hMode11 (v : BitVec 128) (n : Pos) (signed : Bool) (s : State) : Host.Outcome State Fault Refusal :=
  answer s (.texel (bc6Texel bc6Mode11 v n signed))

/-- BC6H.MODE12 (R1015, R1025). -/
def execBc6hMode12 (v : BitVec 128) (n : Pos) (signed : Bool) (s : State) : Host.Outcome State Fault Refusal :=
  answer s (.texel (bc6Texel bc6Mode12 v n signed))

/-- BC6H.MODE13 (R1016, R1025). -/
def execBc6hMode13 (v : BitVec 128) (n : Pos) (signed : Bool) (s : State) : Host.Outcome State Fault Refusal :=
  answer s (.texel (bc6Texel bc6Mode13 v n signed))

/-- The undefined mode value 10011 (R1001). -/
def execBc6hUndef10011 (_v : BitVec 128) (_n : Pos) (_signed : Bool) (s : State) : Host.Outcome State Fault Refusal :=
  answer s (.texel bc6Undefined)

/-- The undefined mode value 10111 (R1001). -/
def execBc6hUndef10111 (_v : BitVec 128) (_n : Pos) (_signed : Bool) (s : State) : Host.Outcome State Fault Refusal :=
  answer s (.texel bc6Undefined)

/-- The undefined mode value 11011 (R1001). -/
def execBc6hUndef11011 (_v : BitVec 128) (_n : Pos) (_signed : Bool) (s : State) : Host.Outcome State Fault Refusal :=
  answer s (.texel bc6Undefined)

/-- The undefined mode value 11111 (R1001). -/
def execBc6hUndef11111 (_v : BitVec 128) (_n : Pos) (_signed : Bool) (s : State) : Host.Outcome State Fault Refusal :=
  answer s (.texel bc6Undefined)

end Sys2Proof.Machine
end

