-- ==== Sys2Proof/Machine/Bc7.lean ====
section
/-! DEFINITION. BC7 (spec/47_bc6h_bc7.md R1040 to R1060). -/
namespace Sys2Proof.Machine

/-- The P-bits of a mode (R1041, R1042), from a bit of the block. -/
inductive Bc7PBits where
  | none
  | shared (lo : Nat)
  | each (lo : Nat)
  deriving DecidableEq, Repr

/-- A field of consecutive values, one per endpoint: the first bit, and the bits of each value. -/
structure Bc7Field where
  lo : Nat
  width : Nat
  deriving DecidableEq, Repr

/-- An index field (R1052). -/
structure Bc7Index where
  lo : Nat
  width : Nat
  deriving DecidableEq, Repr

/-- Where the fields of a mode lie (R1043 to R1050). `alpha` is absent in the colour-only modes; `second` is the
alpha index of modes 4 and 5, which also have a rotation; `selector` is the index selector of mode 4. -/
structure Bc7Mode where
  lines : Nat
  partition : Bc7Field
  red : Bc7Field
  green : Bc7Field
  blue : Bc7Field
  alpha : Option Bc7Field
  pbits : Bc7PBits
  first : Bc7Index
  second : Option Bc7Index
  rotation : Bc7Field
  selector : Option Nat
  deriving DecidableEq, Repr

/-- Mode 0 (R1043). -/
def bc7Mode0 : Bc7Mode :=
  { lines := 3, partition := ⟨1, 4⟩, red := ⟨5, 4⟩, green := ⟨29, 4⟩, blue := ⟨53, 4⟩, alpha := none, pbits := .each 77
    first := ⟨83, 3⟩, second := none, rotation := ⟨0, 0⟩, selector := none }

/-- Mode 1 (R1044). -/
def bc7Mode1 : Bc7Mode :=
  { lines := 2, partition := ⟨2, 6⟩, red := ⟨8, 6⟩, green := ⟨32, 6⟩, blue := ⟨56, 6⟩, alpha := none, pbits := .shared 80
    first := ⟨82, 3⟩, second := none, rotation := ⟨0, 0⟩, selector := none }

/-- Mode 2 (R1045). -/
def bc7Mode2 : Bc7Mode :=
  { lines := 3, partition := ⟨3, 6⟩, red := ⟨9, 5⟩, green := ⟨39, 5⟩, blue := ⟨69, 5⟩, alpha := none, pbits := .none
    first := ⟨99, 2⟩, second := none, rotation := ⟨0, 0⟩, selector := none }

/-- Mode 3 (R1046). -/
def bc7Mode3 : Bc7Mode :=
  { lines := 2, partition := ⟨4, 6⟩, red := ⟨10, 7⟩, green := ⟨38, 7⟩, blue := ⟨66, 7⟩, alpha := none, pbits := .each 94
    first := ⟨98, 2⟩, second := none, rotation := ⟨0, 0⟩, selector := none }

/-- Mode 4 (R1047). -/
def bc7Mode4 : Bc7Mode :=
  { lines := 1, partition := ⟨0, 0⟩, red := ⟨8, 5⟩, green := ⟨18, 5⟩, blue := ⟨28, 5⟩, alpha := some ⟨38, 6⟩, pbits := .none
    first := ⟨50, 2⟩, second := some ⟨81, 3⟩, rotation := ⟨5, 2⟩, selector := some 7 }

/-- Mode 5 (R1048). -/
def bc7Mode5 : Bc7Mode :=
  { lines := 1, partition := ⟨0, 0⟩, red := ⟨8, 7⟩, green := ⟨22, 7⟩, blue := ⟨36, 7⟩, alpha := some ⟨50, 8⟩, pbits := .none
    first := ⟨66, 2⟩, second := some ⟨97, 2⟩, rotation := ⟨6, 2⟩, selector := none }

/-- Mode 6 (R1049). -/
def bc7Mode6 : Bc7Mode :=
  { lines := 1, partition := ⟨0, 0⟩, red := ⟨7, 7⟩, green := ⟨21, 7⟩, blue := ⟨35, 7⟩, alpha := some ⟨49, 7⟩, pbits := .each 63
    first := ⟨65, 4⟩, second := none, rotation := ⟨0, 0⟩, selector := none }

/-- Mode 7 (R1050). -/
def bc7Mode7 : Bc7Mode :=
  { lines := 2, partition := ⟨8, 6⟩, red := ⟨14, 5⟩, green := ⟨34, 5⟩, blue := ⟨54, 5⟩, alpha := some ⟨74, 5⟩, pbits := .each 94
    first := ⟨98, 2⟩, second := none, rotation := ⟨0, 0⟩, selector := none }

/-- The value of a field of `width` bits from bit `lo`; a field of no bits is 0. -/
def bitsAt (v : BitVec 128) (lo width : Nat) : Nat := (v.toNat >>> lo) % 2 ^ width

/-- `rep(v, k)` (R1053). -/
def bc7Replicate (v k : Nat) : Nat := if k = 8 then v else v <<< (8 - k) ||| v >>> (2 * k - 8)

/-- The P-bit of an endpoint (R1053). -/
def bc7PBit (v : BitVec 128) (p : Bc7PBits) (k : Nat) : Option Nat :=
  match p with
  | .none => none
  | .shared lo => some (bitsAt v (lo + k / 2) 1)
  | .each lo => some (bitsAt v (lo + k) 1)

/-- One component of endpoint `k` (R1053). -/
def bc7Endpoint (v : BitVec 128) (p : Bc7PBits) (f : Bc7Field) (k : Nat) : Nat :=
  let e := bitsAt v (f.lo + f.width * k) f.width
  match bc7PBit v p k with
  | none => bc7Replicate e f.width
  | some q => bc7Replicate (2 * e + q) (f.width + 1)

/-- One component of a texel of line `l` with index `i` of `b` bits (R1054). -/
def bc7Chan (v : BitVec 128) (p : Bc7PBits) (f : Bc7Field) (l b i : Nat) : Nat :=
  let k := weightOf b i
  (bc7Endpoint v p f (2 * l) * (64 - k) + bc7Endpoint v p f (2 * l + 1) * k + 32) >>> 6

/-- The partition of a block (R1055 to R1057). -/
def bc7Partition (m : Bc7Mode) (v : BitVec 128) : Partition :=
  let i := bitsAt v m.partition.lo m.partition.width
  match m.lines with
  | 1 => partitionOne
  | 2 => partitionsTwo.getD i partitionOne
  | _ => partitionsThree.getD i partitionOne

/-- Four 8-bit channels. -/
structure Rgba8 where
  r : Nat
  g : Nat
  b : Nat
  a : Nat
  deriving DecidableEq, Repr

/-- The rotation (R1059). -/
def bc7Rotate (k : Nat) (c : Rgba8) : Rgba8 :=
  match k with
  | 1 => { c with r := c.a, a := c.r }
  | 2 => { c with g := c.a, a := c.g }
  | 3 => { c with b := c.a, a := c.b }
  | _ => c

/-- The colour index field and the alpha index field (R1059). -/
def bc7Indices (m : Bc7Mode) (v : BitVec 128) : Bc7Index × Bc7Index :=
  match m.second with
  | none => (m.first, m.first)
  | some j =>
    match m.selector with
    | none => (m.first, j)
    | some b => if bit v b then (j, m.first) else (m.first, j)

/-- A texel's channels in a mode (R1060). -/
def bc7Colour (m : Bc7Mode) (v : BitVec 128) (n : Pos) : Rgba8 :=
  let t := texelNumber n
  let p := bc7Partition m v
  let l := p.line t
  let ix := bc7Indices m v
  let ci := packedIndex v ix.1.lo ix.1.width (fixups m.lines p) t
  let ai := packedIndex v ix.2.lo ix.2.width (fixups m.lines p) t
  bc7Rotate (bitsAt v m.rotation.lo m.rotation.width)
    { r := bc7Chan v m.pbits m.red l ix.1.width ci
      g := bc7Chan v m.pbits m.green l ix.1.width ci
      b := bc7Chan v m.pbits m.blue l ix.1.width ci
      a := match m.alpha with
        | none => 255
        | some f => bc7Chan v m.pbits f l ix.2.width ai }

/-- A texel in a mode (R1058, R1060). -/
def bc7Texel (m : Bc7Mode) (v : BitVec 128) (n : Pos) (srgb : Bool) : Texel :=
  let c := bc7Colour m v n
  rgbTexel srgb c.r c.g c.b (u8 c.a)

/-- The undefined mode value returns zero in every channel (R1042, R1060). -/
def bc7Undefined : Texel := { r := u8 0, g := u8 0, b := u8 0, a := u8 0 }

/-- The mode of a block: the lowest 1 bit of `V[7:0]` (R1042). -/
def bc7ModeOf (v : BitVec 128) : Option Bc7Mode :=
  if bit v 0 then some bc7Mode0
  else if bit v 1 then some bc7Mode1
  else if bit v 2 then some bc7Mode2
  else if bit v 3 then some bc7Mode3
  else if bit v 4 then some bc7Mode4
  else if bit v 5 then some bc7Mode5
  else if bit v 6 then some bc7Mode6
  else if bit v 7 then some bc7Mode7
  else none

/-- `BC7.DECODE` (R1060). -/
def bc7Decoded (v : BitVec 128) (n : Pos) (srgb : Bool) : Texel :=
  match bc7ModeOf v with
  | some m => bc7Texel m v n srgb
  | none => bc7Undefined

/-- BC7.DECODE (R1060). -/
def execBc7 (v : BitVec 128) (n : Pos) (srgb : Bool) (s : State) : Host.Outcome State Fault Refusal :=
  answer s (.texel (bc7Decoded v n srgb))

/-- BC7.MODE0 (R1043, R1060). -/
def execBc7Mode0 (v : BitVec 128) (n : Pos) (srgb : Bool) (s : State) : Host.Outcome State Fault Refusal :=
  answer s (.texel (bc7Texel bc7Mode0 v n srgb))

/-- BC7.MODE1 (R1044, R1060). -/
def execBc7Mode1 (v : BitVec 128) (n : Pos) (srgb : Bool) (s : State) : Host.Outcome State Fault Refusal :=
  answer s (.texel (bc7Texel bc7Mode1 v n srgb))

/-- BC7.MODE2 (R1045, R1060). -/
def execBc7Mode2 (v : BitVec 128) (n : Pos) (srgb : Bool) (s : State) : Host.Outcome State Fault Refusal :=
  answer s (.texel (bc7Texel bc7Mode2 v n srgb))

/-- BC7.MODE3 (R1046, R1060). -/
def execBc7Mode3 (v : BitVec 128) (n : Pos) (srgb : Bool) (s : State) : Host.Outcome State Fault Refusal :=
  answer s (.texel (bc7Texel bc7Mode3 v n srgb))

/-- BC7.MODE4 (R1047, R1060). -/
def execBc7Mode4 (v : BitVec 128) (n : Pos) (srgb : Bool) (s : State) : Host.Outcome State Fault Refusal :=
  answer s (.texel (bc7Texel bc7Mode4 v n srgb))

/-- BC7.MODE5 (R1048, R1060). -/
def execBc7Mode5 (v : BitVec 128) (n : Pos) (srgb : Bool) (s : State) : Host.Outcome State Fault Refusal :=
  answer s (.texel (bc7Texel bc7Mode5 v n srgb))

/-- BC7.MODE6 (R1049, R1060). -/
def execBc7Mode6 (v : BitVec 128) (n : Pos) (srgb : Bool) (s : State) : Host.Outcome State Fault Refusal :=
  answer s (.texel (bc7Texel bc7Mode6 v n srgb))

/-- BC7.MODE7 (R1050, R1060). -/
def execBc7Mode7 (v : BitVec 128) (n : Pos) (srgb : Bool) (s : State) : Host.Outcome State Fault Refusal :=
  answer s (.texel (bc7Texel bc7Mode7 v n srgb))

/-- The undefined mode value 0 (R1042). -/
def execBc7Undef (_v : BitVec 128) (_n : Pos) (_srgb : Bool) (s : State) : Host.Outcome State Fault Refusal :=
  answer s (.texel bc7Undefined)

end Sys2Proof.Machine
end

