-- ==== Sys2Proof/Machine/Etc.lean ====
section
/-! DEFINITION. ETC1, ETC2 and EAC (spec/45_surface_formats.md R836 to R868). -/
namespace Sys2Proof.Machine

/-! ### Conventions (R836) -/

/-- `ext4` to `ext7`: extension to 8 bits by replication. -/
def ext4 (v : Nat) : Nat := v <<< 4 ||| v
def ext5 (v : Nat) : Nat := v <<< 3 ||| v >>> 2
def ext6 (v : Nat) : Nat := v <<< 2 ||| v >>> 4
def ext7 (v : Nat) : Nat := v <<< 1 ||| v >>> 6

/-- `clamp255`. -/
def clamp255 (x : Int) : Nat := (clampI x 0 255).toNat

/-- `++` of bit fields: `a` above the `n` bits of `b`. -/
def cat (a n b : Nat) : Nat := a * 2 ^ n + b

/-- Three integer channels. -/
structure Rgb where
  r : Int
  g : Int
  b : Int
  deriving DecidableEq, Repr

/-- Add the same number to the three channels. -/
def Rgb.plus (c : Rgb) (m : Int) : Rgb := { r := c.r + m, g := c.g + m, b := c.b + m }

/-- Clamp each channel to 0..255. -/
def Rgb.clamped (c : Rgb) : Rgb := { r := clamp255 c.r, g := clamp255 c.g, b := clamp255 c.b }

/-- Three channels from naturals. -/
def rgbOf (r g b : Nat) : Rgb := { r := r, g := g, b := b }

/-- A texel from three channels that have been clamped. -/
def Rgb.texel (c : Rgb) (srgb : Bool) (a : Chan) : Texel := rgbTexel srgb c.r.toNat c.g.toNat c.b.toNat a

/-- Texel index `i(r, c)` (R837). -/
def etcIndex (v : BitVec 64) (n : Pos) : Nat :=
  let k := (4 * n.col.toNat + n.row.toNat + 8) % 16
  2 * bits v (32 + k) (32 + k) + bits v (48 + k) (48 + k)

/-- The magnitudes of the luminance table: rows 0 and 1; rows 2 and 3 are their negatives (R840). -/
def lumRow0 : List Int := [2, 5, 9, 13, 18, 24, 33, 47]
def lumRow1 : List Int := [8, 17, 29, 42, 60, 80, 106, 183]

/-- `LUM[i][column]` (R840). -/
def lum (i col : Nat) : Int :=
  match i with
  | 0 => lumRow0.getD col 0
  | 1 => lumRow1.getD col 0
  | 2 => -lumRow0.getD col 0
  | _ => -lumRow1.getD col 0

/-- `LUMP[i][column]` (R859). -/
def lumP (i col : Nat) : Int :=
  match i with
  | 0 => 0
  | 1 => lumRow1.getD col 0
  | 2 => 0
  | _ => -lumRow1.getD col 0

/-- The distance table (R845). -/
def etcDist (di : Nat) : Int := [3, 6, 11, 16, 23, 32, 41, 64].getD di 0

/-! ### ETC1 -/

/-- The differential sums `R1`, `G1`, `B1` (R841). -/
def diffSums (v : BitVec 64) : Rgb :=
  { r := (bits v 7 3 : Int) + signExt (bits v 2 0) 3
    g := (bits v 15 11 : Int) + signExt (bits v 10 8) 3
    b := (bits v 23 19 : Int) + signExt (bits v 18 16) 3 }

/-- A sum lies in 0..31 (R839, R844). -/
def in31 (x : Int) : Bool := decide (0 ≤ x) && decide (x ≤ 31)

/-- All three sums are in range (R839). -/
def diffInRange (v : BitVec 64) : Bool := in31 (diffSums v).r && in31 (diffSums v).g && in31 (diffSums v).b

/-- The base colours of the individual mode (R841). -/
def baseIndividual (v : BitVec 64) (sub : Bool) : Rgb :=
  if sub then rgbOf (ext4 (bits v 3 0)) (ext4 (bits v 11 8)) (ext4 (bits v 19 16))
  else rgbOf (ext4 (bits v 7 4)) (ext4 (bits v 15 12)) (ext4 (bits v 23 20))

/-- The base colours of the differential mode (R841). -/
def baseDifferential (v : BitVec 64) (sub : Bool) : Rgb :=
  let d := diffSums v
  if sub then rgbOf (ext5 d.r.toNat) (ext5 d.g.toNat) (ext5 d.b.toNat)
  else rgbOf (ext5 (bits v 7 3)) (ext5 (bits v 15 11)) (ext5 (bits v 23 19))

/-- The sub-block of a texel (R838). -/
def etcSub (v : BitVec 64) (n : Pos) : Bool :=
  if bit v 24 then decide (2 ≤ n.row.toNat) else decide (2 ≤ n.col.toNat)

/-- `t[s]`: the luminance column of a sub-block (R841). -/
def lumColumn (v : BitVec 64) (sub : Bool) : Nat := if sub then bits v 28 26 else bits v 31 29

/-- The individual and differential modes, with a luminance table (R841, R859). -/
def etcBlock (table : Nat → Nat → Int) (diff : Bool) (v : BitVec 64) (n : Pos) : Rgb :=
  let sub := etcSub v n
  let base := if diff then baseDifferential v sub else baseIndividual v sub
  (base.plus (table (etcIndex v n) (lumColumn v sub))).clamped

/-- `ETC1.DECODE` (R841). A differential sum out of range leaves the colour unspecified (R839, U20): three free
bytes. -/
def decodeEtc1 (s : State) (v : BitVec 64) (n : Pos) : Texel × State :=
  if bit v 25 && !diffInRange v then
    ({ r := u8 (Config.freeByte s.freeCount).toNat, g := u8 (Config.freeByte (s.freeCount + 1)).toNat,
       b := u8 (Config.freeByte (s.freeCount + 2)).toNat, a := alphaDefault },
      { s with freeCount := s.freeCount + 3 })
  else ((etcBlock lum (bit v 25) v n).texel false alphaDefault, s)

/-- ETC1.DECODE (R841). -/
def execEtc1 (v : BitVec 64) (n : Pos) (s : State) : Host.Outcome State Fault Refusal :=
  answer (decodeEtc1 s v n).2 (.texel (decodeEtc1 s v n).1)

/-! ### ETC2 -/

/-- The modes of ETC2 (R844). -/
inductive Etc2Mode where
  | individual | differential | tMode | hMode | planar
  deriving DecidableEq, Repr

/-- The mode, given `diff` (R844). -/
def etc2Mode (diff : Bool) (v : BitVec 64) : Etc2Mode :=
  let d := diffSums v
  if !diff then .individual
  else if !in31 d.r then .tMode
  else if !in31 d.g then .hMode
  else if !in31 d.b then .planar
  else .differential

/-- The four colours of T mode (R845, R849). -/
def tColour (v : BitVec 64) (i : Nat) : Rgb :=
  let c0 := rgbOf (ext4 (cat (bits v 4 3) 2 (bits v 1 0))) (ext4 (bits v 15 12)) (ext4 (bits v 11 8))
  let c1 := rgbOf (ext4 (bits v 23 20)) (ext4 (bits v 19 16)) (ext4 (bits v 31 28))
  let d := etcDist (cat (bits v 27 26) 1 (bits v 24 24))
  match i with
  | 0 => c0
  | 1 => c1.plus d
  | 2 => c1
  | _ => c1.plus (-d)

/-- A colour as one number, R above G above B (R847). -/
def rgbNumber (c : Rgb) : Nat := c.r.toNat <<< 16 ||| c.g.toNat <<< 8 ||| c.b.toNat

/-- The two base colours of H mode (R847, R849). -/
def hBase0 (v : BitVec 64) : Rgb :=
  rgbOf (ext4 (bits v 6 3)) (ext4 (cat (bits v 2 0) 1 (bits v 12 12)))
    (ext4 (cat (cat (bits v 11 11) 2 (bits v 9 8)) 1 (bits v 23 23)))
def hBase1 (v : BitVec 64) : Rgb :=
  rgbOf (ext4 (bits v 22 19)) (ext4 (cat (bits v 18 16) 1 (bits v 31 31))) (ext4 (bits v 30 27))

/-- The four colours of H mode (R847, R849). -/
def hColour (v : BitVec 64) (i : Nat) : Rgb :=
  let c0 := hBase0 v
  let c1 := hBase1 v
  let lsb := if rgbNumber c0 ≥ rgbNumber c1 then 1 else 0
  let d := etcDist (cat (cat (bits v 26 26) 1 (bits v 24 24)) 1 lsb)
  match i with
  | 0 => c0.plus d
  | 1 => c0.plus (-d)
  | 2 => c1.plus d
  | _ => c1.plus (-d)

/-- One channel of planar mode: one division of the exact sum, rounded to nearest (R848, U21). -/
def planarChan (o h w x y : Nat) : Int := ((x : Int) * ((h : Int) - o) + y * ((w : Int) - o) + 4 * o + 2) / 4

/-- The colour of planar mode (R848, R849). -/
def planarColour (v : BitVec 64) (n : Pos) : Rgb :=
  let x := n.col.toNat
  let y := n.row.toNat
  let r0 := ext6 (bits v 6 1)
  let g0 := ext7 (cat (bits v 0 0) 6 (bits v 14 9))
  let b0 := ext6 (cat (cat (cat (bits v 8 8) 2 (bits v 20 19)) 2 (bits v 17 16)) 1 (bits v 31 31))
  let rh := ext6 (cat (bits v 30 26) 1 (bits v 24 24))
  let gh := ext7 (bits v 39 33)
  let bh := ext6 (cat (bits v 32 32) 5 (bits v 47 43))
  let rv := ext6 (cat (bits v 42 40) 3 (bits v 55 53))
  let gv := ext7 (cat (bits v 52 48) 2 (bits v 63 62))
  let bv := ext6 (bits v 61 56)
  { r := planarChan r0 rh rv x y, g := planarChan g0 gh gv x y, b := planarChan b0 bh bv x y }

/-- The colour of an ETC2 block in a mode, with a luminance table (R849, R862). -/
def etc2Colour (table : Nat → Nat → Int) (m : Etc2Mode) (v : BitVec 64) (n : Pos) : Rgb :=
  match m with
  | .individual => etcBlock table false v n
  | .differential => etcBlock table true v n
  | .tMode => (tColour v (etcIndex v n)).clamped
  | .hMode => (hColour v (etcIndex v n)).clamped
  | .planar => (planarColour v n).clamped

/-- The colour of `ETC2.DECODE` (R849). -/
def decodeEtc2 (v : BitVec 64) (n : Pos) : Rgb := etc2Colour lum (etc2Mode (bit v 25) v) v n

/-- ETC2.DECODE (R849, R850). -/
def execEtc2 (v : BitVec 64) (n : Pos) (srgb : Bool) (s : State) : Host.Outcome State Fault Refusal :=
  answer s (.texel ((decodeEtc2 v n).texel srgb alphaDefault))

/-- Punch-through: the texel's alpha is 0 (R859, R860). -/
def ptaHole (m : Etc2Mode) (v : BitVec 64) (n : Pos) : Bool := m != .planar && !bit v 25 && etcIndex v n == 2

/-- `ETC2.PTA.DECODE` (R862). -/
def decodeEtc2Pta (v : BitVec 64) (n : Pos) (srgb : Bool) : Texel :=
  let m := etc2Mode true v
  if ptaHole m v n then rgbTexel srgb 0 0 0 (u8 0)
  else (etc2Colour (if bit v 25 then lum else lumP) m v n).texel srgb (u8 255)

/-- ETC2.PTA.DECODE (R862). -/
def execEtc2Pta (v : BitVec 64) (n : Pos) (srgb : Bool) (s : State) : Host.Outcome State Fault Refusal :=
  answer s (.texel (decodeEtc2Pta v n srgb))

/-! ### EAC -/

/-- The rows of the intensity modifier table, by texel index (R853). -/
def eacTable : List (List Int) :=
  [[-3, -3, -2, -2, -3, -3, -4, -3, -2, -2, -2, -2, -3, -1, -4, -3],
   [-6, -7, -5, -4, -6, -7, -7, -5, -6, -5, -4, -5, -4, -2, -6, -5],
   [-9, -10, -8, -6, -8, -9, -8, -8, -8, -8, -8, -7, -7, -3, -8, -7],
   [-15, -13, -13, -13, -12, -11, -11, -11, -10, -10, -10, -10, -10, -10, -9, -9],
   [2, 2, 1, 1, 2, 2, 3, 2, 1, 1, 1, 1, 2, 0, 3, 2],
   [5, 6, 4, 3, 5, 6, 6, 4, 5, 4, 3, 4, 3, 1, 5, 4],
   [8, 9, 7, 5, 7, 8, 7, 7, 7, 7, 7, 6, 6, 2, 7, 6],
   [14, 12, 12, 12, 11, 10, 10, 10, 9, 9, 9, 9, 9, 9, 8, 8]]

/-- `IM[i][ti]` (R853). -/
def eacModifier (i ti : Nat) : Int := (eacTable.getD i []).getD ti 0

/-- Bytes 2 to 7 read as a 48-bit big-endian number (R852). -/
def eacIndexWord (v : BitVec 64) : Nat :=
  [bits v 23 16, bits v 31 24, bits v 39 32, bits v 47 40, bits v 55 48, bits v 63 56].foldl
    (fun acc b => 256 * acc + b) 0

/-- The 3-bit index of a texel (R852). -/
def eacIndex (v : BitVec 64) (n : Pos) : Nat :=
  let k := 4 * n.col.toNat + n.row.toNat
  nbits (eacIndexWord v) (47 - 3 * k) (45 - 3 * k)

/-- The modifier of a texel. -/
def eacTexelModifier (v : BitVec 64) (n : Pos) : Int := eacModifier (eacIndex v n) (bits v 11 8)

/-- `R_i`, unsigned (R854). -/
def eacUnsigned (v : BitVec 64) (n : Pos) : Int :=
  let m := bits v 15 12
  let im := eacTexelModifier v n
  clampI ((bits v 7 0 : Int) * 8 + 4 + (if m = 0 then im else im * m * 8)) 0 2047

/-- `R_i`, signed (R854). -/
def eacSigned (v : BitVec 64) (n : Pos) : Int :=
  let m := bits v 15 12
  let im := eacTexelModifier v n
  let r0 := max (-127) (signExt (bits v 7 0) 8)
  clampI (r0 * 8 + (if m = 0 then im else im * m * 8)) (-1023) 1023

/-- The channel of `EAC.R11.DECODE` (R854). -/
def eac11Chan (v : BitVec 64) (n : Pos) (signed : Bool) : Chan :=
  if signed then .snorm (eacSigned v n) 1023 else .unorm (eacUnsigned v n).toNat 2047

/-- EAC.R11.DECODE (R854). -/
def execEacR11 (v : BitVec 64) (n : Pos) (signed : Bool) (s : State) : Host.Outcome State Fault Refusal :=
  answer s (.texel { r := eac11Chan v n signed, g := colourDefault, b := colourDefault, a := alphaDefault })

/-- `EAC.R8` (R865). -/
def eac8 (v : BitVec 64) (n : Pos) : Nat :=
  clamp255 ((bits v 7 0 : Int) + eacTexelModifier v n * bits v 15 12)

/-- EAC.R8 (R865): an 8-bit UNORM value, "alpha (instead of red)" inside the formats that use it (R864); by itself in
the red channel. -/
def execEacR8 (v : BitVec 64) (n : Pos) (s : State) : Host.Outcome State Fault Refusal :=
  answer s (.texel { r := u8 (eac8 v n), g := colourDefault, b := colourDefault, a := alphaDefault })

/-- The low and the high 8 bytes of a 16-byte block (R864, R868). -/
def blockLow (v : BitVec 128) : BitVec 64 := BitVec.ofNat 64 v.toNat
def blockHigh (v : BitVec 128) : BitVec 64 := BitVec.ofNat 64 (v.toNat / 2 ^ 64)

/-- ETC2.EAC.RGBA8.DECODE (R864). -/
def execEtc2EacRgba8 (v : BitVec 128) (n : Pos) (srgb : Bool) (s : State) : Host.Outcome State Fault Refusal :=
  answer s (.texel ((decodeEtc2 (blockHigh v) n).texel srgb (u8 (eac8 (blockLow v) n))))

/-- EAC.RG11.DECODE (R868). -/
def execEacRg11 (v : BitVec 128) (n : Pos) (signed : Bool) (s : State) : Host.Outcome State Fault Refusal :=
  answer s (.texel { r := eac11Chan (blockLow v) n signed, g := eac11Chan (blockHigh v) n signed,
                     b := colourDefault, a := alphaDefault })

end Sys2Proof.Machine
end

