-- ==== Sys2Proof/Machine/Dxt.lean ====
section
/-! DEFINITION. DXT1 to DXT5 (BC1 to BC3), BC4 and BC5 (spec/46_fxt1_dxt_bc.md R950 to R972). -/
namespace Sys2Proof.Machine

/-- An R5G6B5 word as an opaque colour (R954, R955). -/
def colourWord (w : Nat) : Argb8 :=
  { r := e5 (nbits w 15 11), g := e6 (nbits w 10 5), b := e5 (nbits w 4 0), a := 255 }

/-- `DXT1.DECODE` (R955); with `four`, `fourColourOnly` (R957, R960). -/
def dxt1Colour (four : Bool) (v : BitVec 64) (n : Pos) : Argb8 :=
  let c0 := bits v 15 0
  let c1 := bits v 31 16
  let x := colourWord c0
  let y := colourWord c1
  let code := bits v (32 + 2 * texelNumber n + 1) (32 + 2 * texelNumber n)
  if four || decide (c0 > c1) then
    match code with
    | 0 => x
    | 1 => y
    | 2 => blend 2 x 1 y 0 3
    | _ => blend 1 x 2 y 0 3
  else
    match code with
    | 0 => x
    | 1 => y
    | 2 => blend 1 x 1 y 0 2
    | _ => transparentBlack

/-- The texel of a colour with or without sRGB: the conversion of R, G, B and not of alpha is the model's choice where no
rule of the format states it (log entry 32). -/
def Argb8.texelSrgb (x : Argb8) (srgb : Bool) : Texel := rgbTexel srgb x.r x.g x.b (u8 x.a)

/-- DXT1.DECODE (R955). -/
def execDxt1 (v : BitVec 64) (n : Pos) (srgb : Bool) (s : State) : Host.Outcome State Fault Refusal :=
  answer s (.texel ((dxt1Colour false v n).texelSrgb srgb))

/-- DXT1_RGB.DECODE (R957). -/
def execDxt1Rgb (v : BitVec 64) (n : Pos) (srgb : Bool) (s : State) : Host.Outcome State Fault Refusal :=
  answer s (.texel ((dxt1Colour true v n).texelSrgb srgb))

/-- The explicit alpha (R962). -/
def dxt3Alpha (v : BitVec 128) (n : Pos) : Nat := replicate4 (bits v (4 * texelNumber n + 3) (4 * texelNumber n))

/-- DXT3.DECODE (R962). -/
def execDxt3 (v : BitVec 128) (n : Pos) (s : State) : Host.Outcome State Fault Refusal :=
  answer s (.texel ((dxt1Colour true (blockHigh v) n).withAlpha (dxt3Alpha v n)).texel)

/-- The 3-bit code of a texel (R965, R970). -/
def code3 (v : BitVec 64) (n : Pos) : Nat := bits v (16 + 3 * texelNumber n + 2) (16 + 3 * texelNumber n)

/-- The eight values between two end values: six interpolated, or four and the two extremes (R964, R970). Division
truncates toward zero (R921). -/
def interpolate8 (a0 a1 lo hi : Int) (k : Nat) : Int :=
  if a0 > a1 then
    match k with
    | 0 => a0
    | 1 => a1
    | k => Int.tdiv ((8 - k : Int) * a0 + ((k : Int) - 1) * a1) 7
  else
    match k with
    | 0 => a0
    | 1 => a1
    | 6 => lo
    | 7 => hi
    | k => Int.tdiv ((6 - k : Int) * a0 + ((k : Int) - 1) * a1) 5

/-- The alpha of a DXT5 block (R964, R966), and the red of a BC4_UNORM block (R970). -/
def interpolatedUnorm (v : BitVec 64) (n : Pos) : Nat :=
  (interpolate8 (bits v 7 0) (bits v 15 8) 0 255 (code3 v n)).toNat

/-- DXT5.DECODE (R966). -/
def execDxt5 (v : BitVec 128) (n : Pos) (s : State) : Host.Outcome State Fault Refusal :=
  answer s (.texel ((dxt1Colour true (blockHigh v) n).withAlpha (interpolatedUnorm (blockLow v) n)).texel)

/-- The red of a BC4_SNORM block (R970, U24). -/
def bc4Snorm (v : BitVec 64) (n : Pos) : Int :=
  max (-127) (interpolate8 (signExt (bits v 7 0) 8) (signExt (bits v 15 8) 8) (-127) 127 (code3 v n))

/-- The channel of `BC4.DECODE` (R970). -/
def bc4Chan (v : BitVec 64) (n : Pos) (snorm : Bool) : Chan :=
  if snorm then .snorm (bc4Snorm v n) 127 else u8 (interpolatedUnorm v n)

/-- BC4.DECODE (R970). -/
def execBc4 (v : BitVec 64) (n : Pos) (snorm : Bool) (s : State) : Host.Outcome State Fault Refusal :=
  answer s (.texel { r := bc4Chan v n snorm, g := colourDefault, b := colourDefault, a := alphaDefault })

/-- BC5.DECODE (R972). -/
def execBc5 (v : BitVec 128) (n : Pos) (snorm : Bool) (s : State) : Host.Outcome State Fault Refusal :=
  answer s (.texel { r := bc4Chan (blockLow v) n snorm, g := bc4Chan (blockHigh v) n snorm,
                     b := colourDefault, a := alphaDefault })

end Sys2Proof.Machine
end

