-- ==== Sys2Proof/Machine/Dispatch.lean ====
section
/-! DEFINITION. The meaning of every operation of the opcode table: one direct call per constructor. -/
namespace Sys2Proof.Machine

/-- Perform an operation. -/
def exec (i : Instr) (s : State) : Host.Outcome State Fault Refusal :=
  match i with
  | .tileLinear a b c d => Sys2Proof.Machine.execTileLinear a b c d s
  | .tileX a b c d => Sys2Proof.Machine.execTileX a b c d s
  | .tileY a b c d => Sys2Proof.Machine.execTileY a b c d s
  | .tileW a b c d => Sys2Proof.Machine.execTileW a b c d s
  | .tileFence a b c d => Sys2Proof.Machine.execTileFence a b c d s
  | .tileYs64 a b => Sys2Proof.Machine.execTileYs64 a b s
  | .tileYs16 a b => Sys2Proof.Machine.execTileYs16 a b s
  | .tileYs8 a b => Sys2Proof.Machine.execTileYs8 a b s
  | .tileYsMsaa2_64 a b c => Sys2Proof.Machine.execTileYsMsaa2_64 a b c s
  | .tileYsMsaa2_16 a b c => Sys2Proof.Machine.execTileYsMsaa2_16 a b c s
  | .tileYsMsaa2_8 a b c => Sys2Proof.Machine.execTileYsMsaa2_8 a b c s
  | .tileYsMsaa4_64 a b c => Sys2Proof.Machine.execTileYsMsaa4_64 a b c s
  | .tileYsMsaa4_16 a b c => Sys2Proof.Machine.execTileYsMsaa4_16 a b c s
  | .tileYsMsaa4_8 a b c => Sys2Proof.Machine.execTileYsMsaa4_8 a b c s
  | .tileYsMsaa8_64 a b c => Sys2Proof.Machine.execTileYsMsaa8_64 a b c s
  | .tileYsMsaa8_16 a b c => Sys2Proof.Machine.execTileYsMsaa8_16 a b c s
  | .tileYsMsaa8_8 a b c => Sys2Proof.Machine.execTileYsMsaa8_8 a b c s
  | .tileYsMsaa16_64 a b c => Sys2Proof.Machine.execTileYsMsaa16_64 a b c s
  | .tileYsMsaa16_16 a b c => Sys2Proof.Machine.execTileYsMsaa16_16 a b c s
  | .tileYsMsaa16_8 a b c => Sys2Proof.Machine.execTileYsMsaa16_8 a b c s
  | .tileYf64 a b => Sys2Proof.Machine.execTileYf64 a b s
  | .tileYf16 a b => Sys2Proof.Machine.execTileYf16 a b s
  | .tileYf8 a b => Sys2Proof.Machine.execTileYf8 a b s
  | .trttWalk a => Sys2Proof.Machine.execTrttWalk a s
  | .ggttWalk a b c => Sys2Proof.Machine.execGgttWalk a b c s
  | .ppgtt32Walk a b c d e => Sys2Proof.Machine.execPpgtt32Walk a b c d e s
  | .ppgtt48Walk a b c d e => Sys2Proof.Machine.execPpgtt48Walk a b c d e s
  | .ia32eWalk a b c d e => Sys2Proof.Machine.execIa32eWalk a b c d e s
  | .tlbInvalidate a b => Sys2Proof.Machine.execTlbInvalidate a b s
  | .hdcPageReq a => Sys2Proof.Machine.execHdcPageReq a s
  | .hdcPageResp a => Sys2Proof.Machine.execHdcPageResp a s
  | .hdcTlbInv a => Sys2Proof.Machine.execHdcTlbInv a s
  | .pageUpdate0000 a => Sys2Proof.Machine.execPageUpdate0000 a s
  | .pageUpdate0001 a => Sys2Proof.Machine.execPageUpdate0001 a s
  | .pageUpdate0010 a => Sys2Proof.Machine.execPageUpdate0010 a s
  | .pageUpdate0011 a => Sys2Proof.Machine.execPageUpdate0011 a s
  | .pageUpdate0100 a => Sys2Proof.Machine.execPageUpdate0100 a s
  | .pageUpdate0101 a => Sys2Proof.Machine.execPageUpdate0101 a s
  | .pageUpdate0110 a => Sys2Proof.Machine.execPageUpdate0110 a s
  | .pageUpdate0111 a => Sys2Proof.Machine.execPageUpdate0111 a s
  | .pageUpdate1000 a => Sys2Proof.Machine.execPageUpdate1000 a s
  | .pageUpdate1001 a => Sys2Proof.Machine.execPageUpdate1001 a s
  | .pageUpdate1010 a => Sys2Proof.Machine.execPageUpdate1010 a s
  | .pageUpdate1011 a => Sys2Proof.Machine.execPageUpdate1011 a s
  | .pageUpdate1100 a => Sys2Proof.Machine.execPageUpdate1100 a s
  | .pageUpdate1101 a => Sys2Proof.Machine.execPageUpdate1101 a s
  | .pageUpdate1110 a => Sys2Proof.Machine.execPageUpdate1110 a s
  | .pageUpdate1111 a => Sys2Proof.Machine.execPageUpdate1111 a s
  | .aUpdate000 a => Sys2Proof.Machine.execAUpdate000 a s
  | .aUpdate001 a => Sys2Proof.Machine.execAUpdate001 a s
  | .aUpdate010 a => Sys2Proof.Machine.execAUpdate010 a s
  | .aUpdate011 a => Sys2Proof.Machine.execAUpdate011 a s
  | .aUpdate100 a => Sys2Proof.Machine.execAUpdate100 a s
  | .adUpdate101 a => Sys2Proof.Machine.execAdUpdate101 a s
  | .adUpdate110 a => Sys2Proof.Machine.execAdUpdate110 a s
  | .adUpdate111 a => Sys2Proof.Machine.execAdUpdate111 a s
  | .fmtR1 a b => Sys2Proof.Machine.execFmtR1 a b s
  | .fmtP4A4 a => Sys2Proof.Machine.execFmtP4A4 a s
  | .fmtA4P4 a => Sys2Proof.Machine.execFmtA4P4 a s
  | .fmtP8A8 a => Sys2Proof.Machine.execFmtP8A8 a s
  | .fmtA8P8 a => Sys2Proof.Machine.execFmtA8P8 a s
  | .fmtP8 a => Sys2Proof.Machine.execFmtP8 a s
  | .fmtP2 a b => Sys2Proof.Machine.execFmtP2 a b s
  | .fmtYuv422 a b => Sys2Proof.Machine.execFmtYuv422 a b s
  | .etc1 a b => Sys2Proof.Machine.execEtc1 a b s
  | .etc2 a b c => Sys2Proof.Machine.execEtc2 a b c s
  | .eacR11 a b c => Sys2Proof.Machine.execEacR11 a b c s
  | .etc2Pta a b c => Sys2Proof.Machine.execEtc2Pta a b c s
  | .etc2EacRgba8 a b c => Sys2Proof.Machine.execEtc2EacRgba8 a b c s
  | .eacR8 a b => Sys2Proof.Machine.execEacR8 a b s
  | .eacRg11 a b c => Sys2Proof.Machine.execEacRg11 a b c s
  | .fxt1 a b => Sys2Proof.Machine.execFxt1 a b s
  | .fxt1Hi a b => Sys2Proof.Machine.execFxt1Hi a b s
  | .fxt1Chroma a b => Sys2Proof.Machine.execFxt1Chroma a b s
  | .fxt1Mixed a b => Sys2Proof.Machine.execFxt1Mixed a b s
  | .fxt1Alpha a b => Sys2Proof.Machine.execFxt1Alpha a b s
  | .dxt1 a b c => Sys2Proof.Machine.execDxt1 a b c s
  | .dxt1Rgb a b c => Sys2Proof.Machine.execDxt1Rgb a b c s
  | .dxt3 a b => Sys2Proof.Machine.execDxt3 a b s
  | .dxt5 a b => Sys2Proof.Machine.execDxt5 a b s
  | .bc4 a b c => Sys2Proof.Machine.execBc4 a b c s
  | .bc5 a b c => Sys2Proof.Machine.execBc5 a b c s
  | .bc6h a b c => Sys2Proof.Machine.execBc6h a b c s
  | .bc6hMode0 a b c => Sys2Proof.Machine.execBc6hMode0 a b c s
  | .bc6hMode1 a b c => Sys2Proof.Machine.execBc6hMode1 a b c s
  | .bc6hMode2 a b c => Sys2Proof.Machine.execBc6hMode2 a b c s
  | .bc6hMode3 a b c => Sys2Proof.Machine.execBc6hMode3 a b c s
  | .bc6hMode4 a b c => Sys2Proof.Machine.execBc6hMode4 a b c s
  | .bc6hMode5 a b c => Sys2Proof.Machine.execBc6hMode5 a b c s
  | .bc6hMode6 a b c => Sys2Proof.Machine.execBc6hMode6 a b c s
  | .bc6hMode7 a b c => Sys2Proof.Machine.execBc6hMode7 a b c s
  | .bc6hMode8 a b c => Sys2Proof.Machine.execBc6hMode8 a b c s
  | .bc6hMode9 a b c => Sys2Proof.Machine.execBc6hMode9 a b c s
  | .bc6hMode10 a b c => Sys2Proof.Machine.execBc6hMode10 a b c s
  | .bc6hMode11 a b c => Sys2Proof.Machine.execBc6hMode11 a b c s
  | .bc6hMode12 a b c => Sys2Proof.Machine.execBc6hMode12 a b c s
  | .bc6hMode13 a b c => Sys2Proof.Machine.execBc6hMode13 a b c s
  | .bc6hUndef10011 a b c => Sys2Proof.Machine.execBc6hUndef10011 a b c s
  | .bc6hUndef10111 a b c => Sys2Proof.Machine.execBc6hUndef10111 a b c s
  | .bc6hUndef11011 a b c => Sys2Proof.Machine.execBc6hUndef11011 a b c s
  | .bc6hUndef11111 a b c => Sys2Proof.Machine.execBc6hUndef11111 a b c s
  | .bc7 a b c => Sys2Proof.Machine.execBc7 a b c s
  | .bc7Mode0 a b c => Sys2Proof.Machine.execBc7Mode0 a b c s
  | .bc7Mode1 a b c => Sys2Proof.Machine.execBc7Mode1 a b c s
  | .bc7Mode2 a b c => Sys2Proof.Machine.execBc7Mode2 a b c s
  | .bc7Mode3 a b c => Sys2Proof.Machine.execBc7Mode3 a b c s
  | .bc7Mode4 a b c => Sys2Proof.Machine.execBc7Mode4 a b c s
  | .bc7Mode5 a b c => Sys2Proof.Machine.execBc7Mode5 a b c s
  | .bc7Mode6 a b c => Sys2Proof.Machine.execBc7Mode6 a b c s
  | .bc7Mode7 a b c => Sys2Proof.Machine.execBc7Mode7 a b c s
  | .bc7Undef a b c => Sys2Proof.Machine.execBc7Undef a b c s
  | .astc a b c d e => Sys2Proof.Machine.execAstc a b c d e s
  | .astcHeader a b c => Sys2Proof.Machine.execAstcHeader a b c s
  | .bufTyped a b c d => Sys2Proof.Machine.execBufTyped a b c d s
  | .bufRaw a b => Sys2Proof.Machine.execBufRaw a b s
  | .bufStructured a b c d => Sys2Proof.Machine.execBufStructured a b c d s
  | .surf1D a => Sys2Proof.Machine.execSurf1D a s
  | .surf2D a => Sys2Proof.Machine.execSurf2D a s
  | .mcsDecode a b c => Sys2Proof.Machine.execMcsDecode a b c s
  | .surfQuilt a b c d e => Sys2Proof.Machine.execSurfQuilt a b c d e s
  | .surfCube a b => Sys2Proof.Machine.execSurfCube a b s
  | .surf3D a => Sys2Proof.Machine.execSurf3D a s
  | .surfPad a => Sys2Proof.Machine.execSurfPad a s

end Sys2Proof.Machine
end

