-- ==== Sys2Proof/Machine/Step.lean ====
section
/-! DEFINITION. One step of the machine. There is no program counter (spec/10_state.md R32): the machine performs the
oldest action its agents have issued (spec/00_scope.md R6, R11; log entry 1). -/
namespace Sys2Proof.Machine

/-- Decode a record and perform the operation it names; a message about contexts that waited for no more than that goes
on (`settle`). -/
def runRecord (bs : List Byte) (s : State) : Host.Outcome State Fault Refusal :=
  match decode bs with
  | .ok i => andThen (exec i s) settle
  | .error _ => .refused .undecodable

/-- Perform the oldest action of the inbox; with none, nothing happens. -/
def step (s : State) : Host.Outcome State Fault Refusal :=
  match s.inbox with
  | [] => .next s
  | .op bs :: rest => runRecord bs { s with inbox := rest }
  | i :: rest => applyInput i { s with inbox := rest }

/-- The state with the instruction of the given bits as the next action; every bit above is zero. -/
def State.withFetchWord (s : State) (nbits w : Nat) : State :=
  { s with inbox := .op (leBytes 64 (w % 2 ^ nbits)) :: s.inbox }

end Sys2Proof.Machine
end

