-- ==== Sys2Proof/Safety.lean ====
section
/-! DEFINITION. What a run must keep, in the terms the statements use. -/
namespace Sys2Proof.Machine

/-- An outcome is a next state with a property. -/
def NextWith (o : Host.Outcome State Fault Refusal) (P : State → Prop) : Prop := ∃ t, o = .next t ∧ P t

/-- The operation answers a result and changes nothing else of the state. -/
def Answers (i : Instr) (s : State) (r : Result) : Prop := exec i s = .next { s with out := r }

/-- Every byte of memory outside `[a, a + n)` reads as before. -/
def MemSameOutside (s t : State) (a n : Nat) : Prop :=
  ∀ x, x < a ∨ a + n ≤ x → Memory.read t.mem x = Memory.read s.mem x

/-- Every byte of memory reads as before. -/
def MemSame (s t : State) : Prop := ∀ x, Memory.read t.mem x = Memory.read s.mem x

/-- The operation is one read-modify-write of the QWord at an address: it answers the old and the new value, the QWord
then reads as the new value, every byte outside it reads as before, and nothing else changes but the record of what the
write replaced. -/
def UpdatesQWord (i : Instr) (addr : Nat) (f : QWord → QWord) (s : State) : Prop :=
  NextWith (exec i s) (fun t =>
    t = { s with mem := t.mem, oldBytes := t.oldBytes, out := t.out }
      ∧ t.out = .qword (memReadQ s addr) (f (memReadQ s addr)) ∧ memReadQ t addr = f (memReadQ s addr)
      ∧ MemSameOutside s t addr 8)

/-- Whether an operation can write memory: the atomics, and the operations whose walk can set Accessed and Dirty bits
of paging entries (a response to an HDC lets a request that it held back go, R744; the end of an invalidation lets HDCs ask again,
R746). -/
def mayWriteMemory (i : Instr) : Bool :=
  match i with
  | .tileLinear _ _ _ _ => false
  | .tileX _ _ _ _ => false
  | .tileY _ _ _ _ => false
  | .tileW _ _ _ _ => false
  | .tileFence _ _ _ _ => false
  | .tileYs64 _ _ => false
  | .tileYs16 _ _ => false
  | .tileYs8 _ _ => false
  | .tileYsMsaa2_64 _ _ _ => false
  | .tileYsMsaa2_16 _ _ _ => false
  | .tileYsMsaa2_8 _ _ _ => false
  | .tileYsMsaa4_64 _ _ _ => false
  | .tileYsMsaa4_16 _ _ _ => false
  | .tileYsMsaa4_8 _ _ _ => false
  | .tileYsMsaa8_64 _ _ _ => false
  | .tileYsMsaa8_16 _ _ _ => false
  | .tileYsMsaa8_8 _ _ _ => false
  | .tileYsMsaa16_64 _ _ _ => false
  | .tileYsMsaa16_16 _ _ _ => false
  | .tileYsMsaa16_8 _ _ _ => false
  | .tileYf64 _ _ => false
  | .tileYf16 _ _ => false
  | .tileYf8 _ _ => false
  | .trttWalk _ => true
  | .ggttWalk _ _ _ => false
  | .ppgtt32Walk _ _ _ _ _ => false
  | .ppgtt48Walk _ _ _ _ _ => false
  | .ia32eWalk _ _ _ _ _ => true
  | .tlbInvalidate _ _ => false
  | .hdcPageReq _ => true
  | .hdcPageResp _ => true
  | .hdcTlbInv .start => false
  | .hdcTlbInv (.ack _ _) => false
  | .hdcTlbInv .stop => true
  | .pageUpdate0000 _ => true
  | .pageUpdate0001 _ => true
  | .pageUpdate0010 _ => true
  | .pageUpdate0011 _ => true
  | .pageUpdate0100 _ => true
  | .pageUpdate0101 _ => true
  | .pageUpdate0110 _ => true
  | .pageUpdate0111 _ => true
  | .pageUpdate1000 _ => true
  | .pageUpdate1001 _ => true
  | .pageUpdate1010 _ => true
  | .pageUpdate1011 _ => true
  | .pageUpdate1100 _ => true
  | .pageUpdate1101 _ => true
  | .pageUpdate1110 _ => true
  | .pageUpdate1111 _ => true
  | .aUpdate000 _ => true
  | .aUpdate001 _ => true
  | .aUpdate010 _ => true
  | .aUpdate011 _ => true
  | .aUpdate100 _ => true
  | .adUpdate101 _ => true
  | .adUpdate110 _ => true
  | .adUpdate111 _ => true
  | .fmtR1 _ _ => false
  | .fmtP4A4 _ => false
  | .fmtA4P4 _ => false
  | .fmtP8A8 _ => false
  | .fmtA8P8 _ => false
  | .fmtP8 _ => false
  | .fmtP2 _ _ => false
  | .fmtYuv422 _ _ => false
  | .etc1 _ _ => false
  | .etc2 _ _ _ => false
  | .eacR11 _ _ _ => false
  | .etc2Pta _ _ _ => false
  | .etc2EacRgba8 _ _ _ => false
  | .eacR8 _ _ => false
  | .eacRg11 _ _ _ => false
  | .fxt1 _ _ => false
  | .fxt1Hi _ _ => false
  | .fxt1Chroma _ _ => false
  | .fxt1Mixed _ _ => false
  | .fxt1Alpha _ _ => false
  | .dxt1 _ _ _ => false
  | .dxt1Rgb _ _ _ => false
  | .dxt3 _ _ => false
  | .dxt5 _ _ => false
  | .bc4 _ _ _ => false
  | .bc5 _ _ _ => false
  | .bc6h _ _ _ => false
  | .bc6hMode0 _ _ _ => false
  | .bc6hMode1 _ _ _ => false
  | .bc6hMode2 _ _ _ => false
  | .bc6hMode3 _ _ _ => false
  | .bc6hMode4 _ _ _ => false
  | .bc6hMode5 _ _ _ => false
  | .bc6hMode6 _ _ _ => false
  | .bc6hMode7 _ _ _ => false
  | .bc6hMode8 _ _ _ => false
  | .bc6hMode9 _ _ _ => false
  | .bc6hMode10 _ _ _ => false
  | .bc6hMode11 _ _ _ => false
  | .bc6hMode12 _ _ _ => false
  | .bc6hMode13 _ _ _ => false
  | .bc6hUndef10011 _ _ _ => false
  | .bc6hUndef10111 _ _ _ => false
  | .bc6hUndef11011 _ _ _ => false
  | .bc6hUndef11111 _ _ _ => false
  | .bc7 _ _ _ => false
  | .bc7Mode0 _ _ _ => false
  | .bc7Mode1 _ _ _ => false
  | .bc7Mode2 _ _ _ => false
  | .bc7Mode3 _ _ _ => false
  | .bc7Mode4 _ _ _ => false
  | .bc7Mode5 _ _ _ => false
  | .bc7Mode6 _ _ _ => false
  | .bc7Mode7 _ _ _ => false
  | .bc7Undef _ _ _ => false
  | .astc _ _ _ _ _ => false
  | .astcHeader _ _ _ => false
  | .bufTyped _ _ _ _ => false
  | .bufRaw _ _ => false
  | .bufStructured _ _ _ _ => false
  | .surf1D _ => false
  | .surf2D _ => false
  | .mcsDecode _ _ _ => false
  | .surfQuilt _ _ _ _ _ => false
  | .surfCube _ _ => false
  | .surf3D _ => false
  | .surfPad _ => false

/-! ### Invariants -/

/-- Memory is in its canonical form. -/
def Inv (s : State) : Prop := Memory.wf s.mem = true

/-- The reserved fields of the TR-TT registers are 0 (R491, R494, R495). -/
def TrttRegs.ok (r : TrttRegs) : Prop :=
  r.l3ptr.toNat % 65536 = 0 ∧ r.l3ptr.toNat < 2 ^ 48 ∧ r.trvadr.toNat < 256 ∧ r.trtte.toNat < 4

/-- The register files have their sizes, every reserved field is 0 (R80, R82, R491 to R495, R153, R157), and the
parameters are in their sets (R7, R40, R41, R42). -/
structure RegsOk (s : State) : Prop where
  l3Size : s.l3Control.length = 64
  l3Fields : ∀ x ∈ s.l3Control, x.toNat < 64
  gamtSize : s.gamt.length = 512
  gamtFields : ∀ x ∈ s.gamt, x.toNat < 2 ^ 17
  fenceCount : s.fences.length = 16
  paletteSize : s.palette.length = 256
  trttFields : s.trtt.ok
  savedFields : ∀ x ∈ s.trttSaved, x.2.ok
  pasidFields : s.pci.pasidControl &&& 0xFFF8 = 0
  atsFields : s.pci.atsControl &&& 0x7FE0 = 0
  mocsFields : ∀ x ∈ s.mocsSaved, x.2.length = 64 ∧ ∀ v ∈ x.2, v.toNat < 2 ^ 17
  l3SavedFields : ∀ x ∈ s.l3Saved, x.2.length = 64 ∧ ∀ v ∈ x.2, v.toNat < 64
  mchbarForm : Memory.wf s.mchbar = true
  params : s.par.ok = true

/-- The number of engines on which an advanced context of a PASID is resident. -/
def residents (s : State) (p : BitVec 20) : Nat :=
  b2n ((s.eng .render).inPasid p) + b2n ((s.eng .vcs0).inPasid p) + b2n ((s.eng .vcs1).inPasid p)
    + b2n ((s.eng .vecs).inPasid p) + b2n ((s.eng .bcs).inPasid p)

/-- `PASID_State` counts the resident advanced contexts of every PASID (R118), and a delivery starts with no context
resident (R680). -/
structure PasidOk (s : State) : Prop where
  listedOnce : (s.pasidState.map Prod.fst).Nodup
  counts : ∀ p, pasidCount s.pasidState p = residents s p
  emptyInDelivery : ∀ e, (s.eng e).run = .switching → (s.eng e).ctx = none

end Sys2Proof.Machine
end

