-- ==== Sys2Proof/Certificates/Slice0/Obligations.lean ====
section
/-! DEFINITION. The statements for the provers. Each docstring names the rules of spec/ that the statement formalises, or
the log entries whose choices it rests on. -/

open Sys2Proof Sys2Proof.Machine

/-- For every operation i of the opcode table whose operands meet the requirements (WellFormed), decode (encode i)
answers i: no operand bit of any of the 123 rows is dropped. The record layout is the model's own (log entry 1).
(spec/30_encoding.md, R331) -/
def Obligations.DecodeReadsBackEveryOperation : Prop :=
  ∀ i : Instr, i.WellFormed → decode (encode i) = .ok i

/-- Whatever the bytes, an operation that decode answers meets the requirement of WellFormed: a row of a texture
mode has its mode bits in the block. The requirement is the spec's, the record layout is the model's (log entry 1).
(spec/30_encoding.md, R342, R343, R344) -/
def Obligations.DecodeAnswersOnlyWellFormed : Prop :=
  ∀ (bs : List Byte) (i : Instr), decode bs = .ok i → i.WellFormed

/-- The opcodes 1100_0101 and 1100_1111 are the page updates 0101 and 1111; a block byte of 00011 is BC6H mode 10,
10111 the undefined BC6H value, and 1000000 BC7 mode 6 (operands zero). A bare byte as a record is the model's
convention (log entry 1). (R751, R1001, R1042, spec/30_encoding.md) -/
def Obligations.PrintedOpcodesDecodeToTheirRows : Prop :=
  decodeTableWord 8 0xC5 = some (.pageUpdate0101 0) ∧ decodeTableWord 8 0xCF = some (.pageUpdate1111 0) ∧
    decodeTableWord 8 0x03 = some (.bc6hMode10 3 ⟨0, 0⟩ false) ∧
    decodeTableWord 8 0x17 = some (.bc6hUndef10111 0x17 ⟨0, 0⟩ false) ∧
    decodeTableWord 8 0x40 = some (.bc7Mode6 0x40 ⟨0, 0⟩ false)

/-- If the oldest action is a request for an operation and its record decodes to i, step is exec of i on the state
with that action taken out of the inbox: a stop of exec is a stop of step, a next state with no message about
contexts waiting is the step's, and in one where such a message waits (Context Available, a switch: log entry 26)
what waits is done again (R680, R684). An empty inbox leaves the state as it is. The inbox is the model's own (log
entry 1). (spec/00_scope.md, R32, R680, R684) -/
def Obligations.StepPerformsTheDecodedOperation : Prop :=
  (∀ (s : State) (bs : List Byte) (rest : List Input) (i : Instr), s.inbox = .op bs :: rest → decode bs = .ok i →
      (∀ t, exec i { s with inbox := rest } = .next t → (∀ w ∈ t.waiting, w.req.isRequest = true) →
        step s = .next t) ∧
      (∀ t w, exec i { s with inbox := rest } = .next t → w ∈ t.waiting → w.req.isRequest = false →
        step s = outcome (drain t)) ∧
      (∀ x, exec i { s with inbox := rest } = .refused x → step s = .refused x) ∧
      ∀ x, exec i { s with inbox := rest } = .fault x → step s = .fault x) ∧
    (∀ s : State, s.inbox = [] → step s = .next s)

/-- For every state whose memory is canonical (addresses strictly rising, no byte equal to what an unlisted address
reads as), a step that answers a next state leaves it canonical, whatever the action: an operation, a GPU access, a
host access, a register write, a page response, a reset. The canonical form is the model's own. (R200, R202,
spec/20_memory.md) -/
def Obligations.EveryStepKeepsMemoryCanonical : Prop :=
  ∀ s t : State, Inv s → step s = .next t → Inv t

/-- For every state with the register files at their sizes (64 L3 control, 512 memory interface control, 16 fences,
256 palette entries; 64 in each table saved with a context), reserved fields 0 (L3 control 15:6 and memory interface
control 31:17, live and saved, TR-TT registers, live and saved, PASID and ATS control), MCHBAR contents in canonical
form and the parameters in their sets (HAW 39 or 46, GMADR and GSM aligned to their sizes, GTTMMADR to 16 MB, DSM to
4 KB, the listed sizes), every next state has them so. That reserved fields hold 0 is the model's reading of RO
(R36). (R80, R82, R491, R494, R495, R497, R153, R157, R40, R41, R42, R252) -/
def Obligations.EveryStepKeepsReservedFields : Prop :=
  ∀ s t : State, RegsOk s → step s = .next t → RegsOk t

/-- If PASID_State counts, for every PASID, the engines with a resident advanced context of that PASID (and an
engine in a delivery has none), then after any step it still does: after deliveries, switches, terminations,
failures, engine, device and bus resets alike. That PASID_State is the number of engines with a resident advanced
context, and that it is incremented when one becomes resident, R118 derives (the increment is implied by the
decrement): it is the spec's own inference. (R118, R1388, R680, R684) -/
def Obligations.PasidStateCountsResidentContexts : Prop :=
  ∀ s t : State, PasidOk s → step s = .next t → PasidOk t

/-- Memory lists nothing, the register files have their sizes with reserved fields 0, the parameters are in their
sets (log entry 8 names those that the spec leaves open), and PASID_State is all zero with no context resident.
(R180, R1381, R118, R80, R82) -/
def Obligations.ResetStateMeetsTheInvariants : Prop :=
  Inv State.reset ∧ RegsOk State.reset ∧ PasidOk State.reset

/-- The five TR-TT registers are 0 (TR-TT off); L3 control entries 1, 4 and 17 and memory interface control entries
0, 3 and 65 hold the printed defaults; the PASID, ATS and page request registers are 0. 0x4DFC and NullTileCount are
0 too: of 0x4DFC the spec states bit 0 only (bypass on) and the 0 of bits 31:1 is log entry 10 (R36(f), D49); the 0
of NullTileCount is decision D11 (R74). (R70, R72, R74, R36, R247, R254, R1392, R153, R157, R168,
spec/92_eei_decisions.md) -/
def Obligations.ResetGivesTheStatedRegisterValues : Prop :=
  State.reset.trtt = ⟨0, 0, 0, 0, 0⟩ ∧ State.reset.reg4DFC = 0 ∧ State.reset.nullTileCount = 0 ∧
    State.reset.l3Control[1]? = some 0x0010 ∧ State.reset.l3Control[4]? = some 0x001F ∧
    State.reset.l3Control[17]? = some 0x0010 ∧ State.reset.gamt[0]? = some 0x30 ∧ State.reset.gamt[3]? = some 0x31 ∧
    State.reset.gamt[65]? = some 0x34 ∧ State.reset.pci = ⟨0, 0, false, false, false, false, 0⟩

/-- If any operation answers a next state, the TR-TT registers (live and saved), 0x4DFC, 0x404C, 0x4A30, the option
register, the private PAT registers, the L3 control and memory interface control tables (live and saved), fences,
MCHBAR contents, PCI capability registers, palette, parameters, IOMMU inputs, PASID_State, the contexts remembered
as away, bad or failed, host data and the inbox are unchanged, and so are every engine's descriptor registers,
pending reset, and the type, PASID and context ID of its resident context. NullTileCount (R50, R74) is left out:
TRTT.WALK counts null tiles in it (R504). (R331, R33, R36, spec/10_state.md) -/
def Obligations.NoOperationChangesARegister : Prop :=
  ∀ (i : Instr) (s t : State), exec i s = .next t →
    (t.trtt = s.trtt ∧ t.trttSaved = s.trttSaved ∧ t.mocsSaved = s.mocsSaved ∧ t.l3Saved = s.l3Saved ∧
      t.failedContexts = s.failedContexts ∧ t.mchbar = s.mchbar ∧ t.badContexts = s.badContexts ∧
      t.awayContexts = s.awayContexts ∧ t.reg4DFC = s.reg4DFC ∧ t.reg404C = s.reg404C ∧
      t.reg4A30 = s.reg4A30 ∧ t.adNonWB = s.adNonWB ∧ t.reg40E0 = s.reg40E0 ∧ t.reg40E4 = s.reg40E4 ∧
      t.reg40E8 = s.reg40E8 ∧ t.reg40EC = s.reg40EC ∧ t.l3Control = s.l3Control ∧ t.gamt = s.gamt ∧
      t.fences = s.fences ∧ t.pci = s.pci ∧ t.palette = s.palette ∧ t.par = s.par ∧ t.iommu = s.iommu ∧
      t.pasidState = s.pasidState ∧ t.hostData = s.hostData ∧ t.inbox = s.inbox) ∧
    ∀ e : Engine, (t.eng e).desc = (s.eng e).desc ∧ (t.eng e).resetPending = (s.eng e).resetPending ∧
      (t.eng e).ctx.map (fun c => (c.advanced, c.pasid, c.contextID)) =
        (s.eng e).ctx.map (fun c => (c.advanced, c.pasid, c.contextID))

/-- Every operation but the 24 atomics, IA32E.WALK, TRTT.WALK, HDC.PAGEREQ, HDC.PAGERESP and the end of an
invalidation (HDC.TLBINV) leaves every byte of memory as it was. The page walk behind the last three may set A and D
bits: a response lets a request go that the HDC had held back, and after the end HDCs ask again for what waits (R746
step 5). (R574, R576, R572, R751, R331, R740, R746) -/
def Obligations.OnlyTableUpdatesWriteMemory : Prop :=
  ∀ (i : Instr) (s t : State), mayWriteMemory i = false → exec i s = .next t → t.mem = s.mem

/-- For every base, pitch, byte column X and row Y, TILE.LINEAR answers Base + Y*Pitch + X; for a 4 KB aligned base
and X below Pitch*TileW (R418), TILE.X, TILE.Y and TILE.W answer Base + off, with off = RowSize*(Y div TileH) +
4096*(X div TileW) + the printed offset inside the tile. Nothing else changes. That is for an offset from the base
below 2^38; a larger one is refused by name (R1200, U35). (R419, R420, R421, R422, R418, R1200,
spec/93_implementation_defined.md) -/
def Obligations.LegacyTileAddresses : Prop :=
  ∀ (s : State) (base : BitVec 64) (pitch x y : BitVec 32) (lin ox oy ow : Nat),
    lin = y.toNat * pitch.toNat + x.toNat →
    ox = pitch.toNat * 4096 * (y.toNat / 8) + 4096 * (x.toNat / 512) + (512 * (y.toNat % 8) + x.toNat % 512) →
    oy = pitch.toNat * 4096 * (y.toNat / 32) + 4096 * (x.toNat / 128) +
      (32 * 16 * (x.toNat % 128 / 16) + y.toNat % 32 * 16 + x.toNat % 128 % 16) →
    ow = pitch.toNat * 4096 * (y.toNat / 64) + 4096 * (x.toNat / 64) +
      (64 * 8 * (x.toNat % 64 / 8) + 64 * (y.toNat % 64 / 8) + 32 * (y.toNat % 64 / 4 % 2) +
        16 * (x.toNat % 64 / 4 % 2) + 8 * (y.toNat % 64 / 2 % 2) + 4 * (x.toNat % 64 / 2 % 2) +
        2 * (y.toNat % 64 % 2) + x.toNat % 64 % 2) →
    (lin < 2 ^ 38 → Answers (.tileLinear base pitch x y) s (.address (base.toNat + lin))) ∧
    (2 ^ 38 ≤ lin → exec (.tileLinear base pitch x y) s = .refused .offsetTooLarge) ∧
    (base.toNat % 4096 = 0 →
      (x.toNat < pitch.toNat * 512 → ox < 2 ^ 38 → Answers (.tileX base pitch x y) s (.address (base.toNat + ox))) ∧
      (x.toNat < pitch.toNat * 512 → 2 ^ 38 ≤ ox → exec (.tileX base pitch x y) s = .refused .offsetTooLarge) ∧
      (x.toNat < pitch.toNat * 128 → oy < 2 ^ 38 → Answers (.tileY base pitch x y) s (.address (base.toNat + oy))) ∧
      (x.toNat < pitch.toNat * 128 → 2 ^ 38 ≤ oy → exec (.tileY base pitch x y) s = .refused .offsetTooLarge) ∧
      (x.toNat < pitch.toNat * 64 → ow < 2 ^ 38 → Answers (.tileW base pitch x y) s (.address (base.toNat + ow))) ∧
      (x.toNat < pitch.toNat * 64 → 2 ^ 38 ≤ ow → exec (.tileW base pitch x y) s = .refused .offsetTooLarge))

/-- TILE.X, TILE.Y and TILE.W with a base that is not a multiple of 4096 are refused by name: the spec calls the
result of a misaligned base not defined (U1). (R402, spec/93_implementation_defined.md) -/
def Obligations.MisalignedTileBaseIsRefused : Prop :=
  ∀ (s : State) (base : BitVec 64) (pitch x y : BitVec 32), base.toNat % 4096 ≠ 0 →
    exec (.tileX base pitch x y) s = .refused .surfaceMisaligned ∧
    exec (.tileY base pitch x y) s = .refused .surfaceMisaligned ∧
    exec (.tileW base pitch x y) s = .refused .surfaceMisaligned

/-- For a row Y and a byte column X below Pitch*TileW, the host offset FenceBase + Y*(Pitch*TileW) + X is answered
the address that the tile walk (X, Y or W) of the fence's base and pitch gives position (X, Y): the pair is the
position of the byte in a linear surface of pitch Pitch*TileW. An offset below the base, or a fence without a pitch,
is answered some address (a free value, log entry 33) and nothing else changes. (R423, R448, R419, R420, R421, R422)
-/
def Obligations.FencedAddressIsTheTiledPosition : Prop :=
  ∀ (s : State) (linear base : BitVec 64) (pitch : BitVec 32) (walk : TileWalk),
   (∀ x y : Nat,
    x < pitch.toNat * tileWidth walk → linear.toNat = base.toNat + y * (pitch.toNat * tileWidth walk) + x →
    Answers (.tileFence linear base pitch walk) s (.address (base.toNat + tiledOffset walk pitch.toNat x y))) ∧
   (linear.toNat < base.toNat ∨ pitch = 0 → ∃ x, exec (.tileFence linear base pitch walk) s =
      .next { s with freeCount := s.freeCount + 8, out := .address x })

/-- For the X, Y and W walks, two positions with byte columns inside the pitch and the same tiled offset are the
same position: tiling is a permutation of the surface's bytes. (R418, R420, R421, R422) -/
def Obligations.TiledBytesNeverShareAnAddress : Prop :=
  ∀ (k : TileWalk) (pitch x y x' y' : Nat), x < pitch * tileWidth k → x' < pitch * tileWidth k →
    tiledOffset k pitch x y = tiledOffset k pitch x' y' → x = x' ∧ y = y'

/-- For every x and y, the six operations answer the 16-bit value of the printed mask-and-shift expressions xSwizzle
| ySwizzle, and change nothing else. (R427, R428, R429, R442, R443, R444) -/
def Obligations.TileYsAndYfOffsets : Prop :=
  ∀ (s : State) (x y : BitVec 16),
    Answers (.tileYs64 x y) s (.offset (((x &&& 0x200) <<< 6) ||| ((x &&& 0x100) <<< 5) |||
      ((x &&& 0x80) <<< 4) ||| ((x &&& 0x40) <<< 3) ||| ((x &&& 0x0030) <<< 2) ||| (x &&& 0x000F) |||
        ((y &&& 0x20) <<< 9) ||| ((y &&& 0x10) <<< 8) ||| ((y &&& 0x8) <<< 7) ||| ((y &&& 0x4) <<< 6) |||
          ((y &&& 0x0003) <<< 4))) ∧
    Answers (.tileYs16 x y) s (.offset (((x &&& 0x100) <<< 7) ||| ((x &&& 0x80) <<< 6) |||
      ((x &&& 0x40) <<< 5) ||| ((x &&& 0x20) <<< 4) ||| ((x &&& 0x10) <<< 3) ||| (x &&& 0x000F) |||
        ((y &&& 0x40) <<< 8) ||| ((y &&& 0x20) <<< 7) ||| ((y &&& 0x10) <<< 6) ||| ((y &&& 0x8) <<< 5) |||
          ((y &&& 0x0007) <<< 4))) ∧
    Answers (.tileYs8 x y) s (.offset (((x &&& 0x80) <<< 8) ||| ((x &&& 0x40) <<< 7) |||
      ((x &&& 0x20) <<< 6) ||| ((x &&& 0x10) <<< 5) ||| (x &&& 0x000F) |||
        ((y &&& 0x80) <<< 7) ||| ((y &&& 0x40) <<< 6) ||| ((y &&& 0x20) <<< 5) ||| ((y &&& 0x001F) <<< 4))) ∧
    Answers (.tileYf64 x y) s (.offset (((x &&& 0x80) <<< 4) ||| ((x &&& 0x40) <<< 3) |||
      ((x &&& 0x0030) <<< 2) ||| (x &&& 0x000F) |||
        ((y &&& 0x8) <<< 7) ||| ((y &&& 0x4) <<< 6) ||| ((y &&& 0x0003) <<< 4))) ∧
    Answers (.tileYf16 x y) s (.offset (((x &&& 0x40) <<< 5) ||| ((x &&& 0x20) <<< 4) |||
      ((x &&& 0x10) <<< 3) ||| (x &&& 0x000F) |||
        ((y &&& 0x10) <<< 6) ||| ((y &&& 0x8) <<< 5) ||| ((y &&& 0x0007) <<< 4))) ∧
    Answers (.tileYf8 x y) s (.offset (((x &&& 0x20) <<< 6) ||| ((x &&& 0x10) <<< 5) ||| (x &&& 0x000F) |||
        ((y &&& 0x20) <<< 5) ||| ((y &&& 0x001F) <<< 4)))

/-- For every x, y and sample number, the twelve operations answer the 16-bit value of the corrected mask-and-shift
expressions SampleSwizzle | xSwizzle | ySwizzle (the & of the comment tables, and the x shifts of the
concatenations), and change nothing else. (R430, R431, R432, R433, R434, R435, R436, R437, R438, R439, R440, R441)
-/
def Obligations.MultisampledTileYsOffsets : Prop :=
  ∀ (s : State) (x y n : BitVec 16),
    Answers (.tileYsMsaa2_64 x y n) s (.offset (((n &&& 0x0001) <<< 15) ||| ((x &&& 0x100) <<< 5) |||
      ((x &&& 0x80) <<< 4) ||| ((x &&& 0x40) <<< 3) ||| ((x &&& 0x0030) <<< 2) ||| (x &&& 0x000F) |||
        ((y &&& 0x20) <<< 9) ||| ((y &&& 0x10) <<< 8) ||| ((y &&& 0x8) <<< 7) ||| ((y &&& 0x4) <<< 6) |||
          ((y &&& 0x0003) <<< 4))) ∧
    Answers (.tileYsMsaa2_16 x y n) s (.offset (((n &&& 0x0001) <<< 15) ||| ((x &&& 0x80) <<< 6) |||
      ((x &&& 0x40) <<< 5) ||| ((x &&& 0x20) <<< 4) ||| ((x &&& 0x10) <<< 3) ||| (x &&& 0x000F) |||
        ((y &&& 0x40) <<< 8) ||| ((y &&& 0x20) <<< 7) ||| ((y &&& 0x10) <<< 6) ||| ((y &&& 0x8) <<< 5) |||
          ((y &&& 0x0007) <<< 4))) ∧
    Answers (.tileYsMsaa2_8 x y n) s (.offset (((n &&& 0x0001) <<< 15) ||| ((x &&& 0x40) <<< 7) |||
      ((x &&& 0x20) <<< 6) ||| ((x &&& 0x10) <<< 5) ||| (x &&& 0x000F) |||
        ((y &&& 0x80) <<< 7) ||| ((y &&& 0x40) <<< 6) ||| ((y &&& 0x20) <<< 5) ||| ((y &&& 0x001F) <<< 4))) ∧
    Answers (.tileYsMsaa4_64 x y n) s (.offset (((n &&& 0x0003) <<< 14) ||| ((x &&& 0x100) <<< 5) |||
      ((x &&& 0x80) <<< 4) ||| ((x &&& 0x40) <<< 3) ||| ((x &&& 0x0030) <<< 2) ||| (x &&& 0x000F) |||
        ((y &&& 0x10) <<< 8) ||| ((y &&& 0x8) <<< 7) ||| ((y &&& 0x4) <<< 6) ||| ((y &&& 0x0003) <<< 4))) ∧
    Answers (.tileYsMsaa4_16 x y n) s (.offset (((n &&& 0x0003) <<< 14) ||| ((x &&& 0x80) <<< 6) |||
      ((x &&& 0x40) <<< 5) ||| ((x &&& 0x20) <<< 4) ||| ((x &&& 0x10) <<< 3) ||| (x &&& 0x000F) |||
        ((y &&& 0x20) <<< 7) ||| ((y &&& 0x10) <<< 6) ||| ((y &&& 0x8) <<< 5) ||| ((y &&& 0x0007) <<< 4))) ∧
    Answers (.tileYsMsaa4_8 x y n) s (.offset (((n &&& 0x0003) <<< 14) ||| ((x &&& 0x40) <<< 7) |||
      ((x &&& 0x20) <<< 6) ||| ((x &&& 0x10) <<< 5) ||| (x &&& 0x000F) |||
        ((y &&& 0x40) <<< 6) ||| ((y &&& 0x20) <<< 5) ||| ((y &&& 0x001F) <<< 4))) ∧
    Answers (.tileYsMsaa8_64 x y n) s (.offset (((n &&& 0x0007) <<< 13) ||| ((x &&& 0x80) <<< 4) |||
      ((x &&& 0x40) <<< 3) ||| ((x &&& 0x0030) <<< 2) ||| (x &&& 0x000F) |||
        ((y &&& 0x10) <<< 8) ||| ((y &&& 0x8) <<< 7) ||| ((y &&& 0x4) <<< 6) ||| ((y &&& 0x0003) <<< 4))) ∧
    Answers (.tileYsMsaa8_16 x y n) s (.offset (((n &&& 0x0007) <<< 13) ||| ((x &&& 0x40) <<< 5) |||
      ((x &&& 0x20) <<< 4) ||| ((x &&& 0x10) <<< 3) ||| (x &&& 0x000F) |||
        ((y &&& 0x20) <<< 7) ||| ((y &&& 0x10) <<< 6) ||| ((y &&& 0x8) <<< 5) ||| ((y &&& 0x0007) <<< 4))) ∧
    Answers (.tileYsMsaa8_8 x y n) s (.offset (((n &&& 0x0007) <<< 13) ||| ((x &&& 0x20) <<< 6) |||
      ((x &&& 0x10) <<< 5) ||| (x &&& 0x000F) |||
        ((y &&& 0x40) <<< 6) ||| ((y &&& 0x20) <<< 5) ||| ((y &&& 0x001F) <<< 4))) ∧
    Answers (.tileYsMsaa16_64 x y n) s (.offset (((n &&& 0x000F) <<< 12) ||| ((x &&& 0x80) <<< 4) |||
      ((x &&& 0x40) <<< 3) ||| ((x &&& 0x0030) <<< 2) ||| (x &&& 0x000F) |||
        ((y &&& 0x8) <<< 7) ||| ((y &&& 0x4) <<< 6) ||| ((y &&& 0x0003) <<< 4))) ∧
    Answers (.tileYsMsaa16_16 x y n) s (.offset (((n &&& 0x000F) <<< 12) ||| ((x &&& 0x40) <<< 5) |||
      ((x &&& 0x20) <<< 4) ||| ((x &&& 0x10) <<< 3) ||| (x &&& 0x000F) |||
        ((y &&& 0x10) <<< 6) ||| ((y &&& 0x8) <<< 5) ||| ((y &&& 0x0007) <<< 4))) ∧
    Answers (.tileYsMsaa16_8 x y n) s (.offset (((n &&& 0x000F) <<< 12) ||| ((x &&& 0x20) <<< 6) |||
      ((x &&& 0x10) <<< 5) ||| (x &&& 0x000F) |||
        ((y &&& 0x20) <<< 5) ||| ((y &&& 0x001F) <<< 4)))

/-- For positions inside the tile of each of the six one-sample operations, equal answers mean equal positions: the
printed permutation uses every bit of x and y. (R427, R428, R429, R442, R443, R444) -/
def Obligations.TileYsOffsetsAreOneToOne : Prop :=
  ∀ (s : State) (x y x' y' : BitVec 16),
    (x.toNat < 1024 → x'.toNat < 1024 → y.toNat < 64 → y'.toNat < 64 →
      exec (.tileYs64 x y) s = exec (.tileYs64 x' y') s → x = x' ∧ y = y') ∧
    (x.toNat < 512 → x'.toNat < 512 → y.toNat < 128 → y'.toNat < 128 →
      exec (.tileYs16 x y) s = exec (.tileYs16 x' y') s → x = x' ∧ y = y') ∧
    (x.toNat < 256 → x'.toNat < 256 → y.toNat < 256 → y'.toNat < 256 →
      exec (.tileYs8 x y) s = exec (.tileYs8 x' y') s → x = x' ∧ y = y') ∧
    (x.toNat < 256 → x'.toNat < 256 → y.toNat < 16 → y'.toNat < 16 →
      exec (.tileYf64 x y) s = exec (.tileYf64 x' y') s → x = x' ∧ y = y') ∧
    (x.toNat < 128 → x'.toNat < 128 → y.toNat < 32 → y'.toNat < 32 →
      exec (.tileYf16 x y) s = exec (.tileYf16 x' y') s → x = x' ∧ y = y') ∧
    (x.toNat < 64 → x'.toNat < 64 → y.toNat < 64 → y'.toNat < 64 →
      exec (.tileYf8 x y) s = exec (.tileYf8 x' y') s → x = x' ∧ y = y')

/-- For va below 2^32 inside the GTT (outside: refused, U4, U9), with pte the QWord at GSM_BASE + 8*va[31:12], no
engine or one whose resident context may run (without a context refused, R110; one that may not run refused, U43),
not hung nor in a delivery and the miss pipeline open (else the request waits: R1312, R1316, log entry 23): pte[0] =
1 answers Phys(pte[HAW-1:12] << 12 | va[11:0], 4KB, pat = pcd = pwt = 0) and nothing else changes, where that
address is one a translation may give (U16; else refused); pte[0] = 0 ends the walk of an engine with the engine
hung on PageFault(NotPresent) of the GGTT level at the page of va, reported to the driver, its request waiting,
memory unchanged; that of no engine (aperture, display) is an invalid access that changes nothing (D52). (R572,
R571, R110, R539, R1304, R1308, R1312, R1316, R33, R230, spec/92_eei_decisions.md,
spec/93_implementation_defined.md) -/
def Obligations.GgttWalkAnswersThePage : Prop :=
  ∀ (s : State) (e : Option Engine) (a : Acc) (va pte : QWord) (pa : Nat),
    pte = memReadQ s (s.par.gsmBase + 8 * (va.toNat / 4096)) →
    pa = bits pte (s.par.haw - 1) 12 * 4096 + va.toNat % 4096 →
    let q : WalkReq := { engine := e, ggtt := true, client := .other, mocs := none, acc := a, va := va.toNat }
    let runs : Prop := ∀ f, e = some f → ∃ c, (s.eng f).ctx = some c ∧ iommuRefusal c = none
    (∀ f, e = some f → (s.eng f).ctx = none → exec (.ggttWalk e a va) s = .refused .noResidentContext) ∧
    (∀ f c x, e = some f → (s.eng f).ctx = some c → iommuRefusal c = some x →
      exec (.ggttWalk e a va) s = .refused x) ∧
    (runs → walkWaits s e = true → exec (.ggttWalk e a va) s =
      .next { s with waiting := s.waiting ++ [⟨.walk q, false, none⟩], out := .waits }) ∧
    (runs → walkWaits s e = false →
      (2 ^ 32 ≤ va.toNat → exec (.ggttWalk e a va) s = .refused .vaOutOfRange) ∧
      (va.toNat < 2 ^ 32 → s.par.gsmSize / 8 ≤ va.toNat / 4096 →
        exec (.ggttWalk e a va) s = .refused .ggttBeyondGsm) ∧
      (va.toNat < 2 ^ 32 → va.toNat / 4096 < s.par.gsmSize / 8 →
        (bit pte 0 = true → physOk s.par pa 1 = true →
          Answers (.ggttWalk e a va) s (.xlate (.phys pa .size4K false false false))) ∧
        (bit pte 0 = true → physOk s.par pa 1 = false → exec (.ggttWalk e a va) s = .refused .physicalRange) ∧
        (bit pte 0 = false → e = none → Answers (.ggttWalk e a va) s .dropped) ∧
        (∀ f : Engine, bit pte 0 = false → e = some f → NextWith (exec (.ggttWalk e a va) s) (fun t =>
          ∃ r : PageFault, r.code = .notPresent ∧ r.level = .gtt ∧ r.va = va.toNat / 4096 * 4096 ∧ r.acc = a ∧
            r.ggtt = true ∧ (t.eng f).run = .hung r true ∧ (t.eng f).needsReset = true ∧
            t.events.driver = s.events.driver ++ [.hangReport f r] ∧
            t.waiting = s.waiting ++ [⟨.walk q, true, none⟩] ∧ t.out = .pageFault .notPresent .gtt ∧
            t.mem = s.mem))))

/-- For a 32-bit legacy context on an engine that takes walks (not hung, not in a delivery, the miss pipeline open),
a MOCS index below 62 with PFM 000, a client that may make the access (R207) and va below 2^32 with a present PDE
and a present PTE (the 64 KB one of R580 when Enable64K and pde[11] = 1): a PTE with N = 1 answers NullPage;
otherwise a read, or a write where pte[1] = 1, answers Phys with pat, pcd, pwt = pte[7], pte[4], pte[3], where that
address is one a translation may give (U16). Nothing else changes: the walk never writes the tables. Derived: R574
infers the 2 + 9 + 9 split of the address and R577 how the addresses are formed; N tested after P is D13 (R526).
(R574, R577, R580, R526, spec/92_eei_decisions.md) -/
def Obligations.Ppgtt32WalkAnswersThePage : Prop :=
  ∀ (s : State) (e : Engine) (k : Client) (m : BitVec 6) (a : Acc) (va : QWord) (c : Ctx) (e2 e1 : QWord) (big : Bool),
    (s.eng e).ctx = some c → c.mode = .legacy32 → m.toNat < 62 → walkWaits s (some e) = false →
    pfmField s e (some m) = 0 → (k.readOnly = true → isWrite a = false) → va.toNat < 2 ^ 32 →
    e2 = memReadQ s (bits (c.pdp (nbits va.toNat 31 30)) (s.par.haw - 1) 12 * 4096 + 8 * nbits va.toNat 29 21) →
    bit e2 0 = true → big = (c.enable64K s.par && bit e2 11) →
    e1 = memReadQ s (bits e2 (s.par.haw - 1) 12 * 4096 +
      (if big then 128 * nbits va.toNat 20 16 else 8 * nbits va.toNat 20 12)) →
    bit e1 0 = true →
    (bit e1 9 = true → Answers (.ppgtt32Walk e k m a va) s (.xlate .nullPage)) ∧
    (bit e1 9 = false → (isWrite a = false ∨ bit e1 1 = true) →
      physOk s.par (if big then bits e1 (s.par.haw - 1) 16 * 65536 + va.toNat % 65536
        else bits e1 (s.par.haw - 1) 12 * 4096 + va.toNat % 4096) 1 = true → Answers (.ppgtt32Walk e k m a va) s
      (.xlate (if big then
          .phys (bits e1 (s.par.haw - 1) 16 * 65536 + va.toNat % 65536) .size64K (bit e1 7) (bit e1 4) (bit e1 3)
        else .phys (bits e1 (s.par.haw - 1) 12 * 4096 + va.toNat % 4096) .size4K (bit e1 7) (bit e1 4) (bit e1 3))))

/-- For a 32-bit or 48-bit legacy context on an engine that takes walks, a MOCS index below 62 with PFM 000 and a
client that may make the access (R207): a not-present entry at any level (PML4, PDP, PD, PT), or a write to a
present leaf with N = 0 and R/W = 0 (1 GB PDPE, 2 MB PDE, PTE of 64 KB or 4 KB; the GTT cache off for 48-bit
contexts) makes the walk end with engine e hung on the fault (NotPresent, WritePermission) of that level at the page
of va, needing a reset, HangReport to the driver, the request waiting; memory, the contexts and the page request
records are unchanged. The faults of GGTT walks are in GgttWalkAnswersThePage. The write-permission fault of a
legacy leaf is decision D15 (R596, conflict C14), and P = 0 reported before N is decision D13 (R526). Bit 7 of a
48-bit PDPE or PDE as page size and bit 11 as IPS are decision D14 (conflict C10, R536, R576); the split of the
address is an inference of R574 and R576, its formation one of R577. (R574, R576, R577, R580, R596, R526, R536,
R1308, R1312, R1303, spec/92_eei_decisions.md, spec/90_conflicts.md) -/
def Obligations.LegacyFaultHangsTheEngine : Prop :=
  ∀ (s : State) (e : Engine) (k : Client) (m : BitVec 6) (a : Acc) (va : QWord) (c : Ctx) (e4 e3 e2 e1 : QWord)
    (big : Bool) (code : FaultCode) (l : Level),
    (s.eng e).ctx = some c → m.toNat < 62 → walkWaits s (some e) = false →
    pfmField s e (some m) = 0 → (k.readOnly = true → isWrite a = false) →
    big = (c.enable64K s.par && bit e2 11) →
    e1 = memReadQ s (bits e2 (s.par.haw - 1) 12 * 4096 +
      (if big then 128 * nbits va.toNat 20 16 else 8 * nbits va.toNat 20 12)) →
    let denied (x : QWord) : Prop := bit x 0 = true ∧ bit x 9 = false ∧ bit x 1 = false ∧ isWrite a = true
    let low : Prop := (bit e2 0 = false ∧ code = .notPresent ∧ l = .pd) ∨
      (bit e2 0 = true ∧ bit e1 0 = false ∧ code = .notPresent ∧ l = .pt) ∨
      (bit e2 0 = true ∧ denied e1 ∧ code = .writePermission ∧ l = .pt)
    let hangs (i : Instr) : Prop := NextWith (exec i s) (fun t =>
      ∃ r : PageFault, r.code = code ∧ r.level = l ∧ r.va = va.toNat / 4096 * 4096 ∧ r.acc = a ∧ r.engine = some e ∧
        (t.eng e).run = .hung r true ∧ (t.eng e).needsReset = true ∧ (t.eng e).ctx = some c ∧
        t.out = .pageFault code l ∧ t.events.driver = s.events.driver ++ [.hangReport e r] ∧
        t.waiting = s.waiting ++ [⟨.walk ⟨some e, false, k, some m, a, va.toNat⟩, true, none⟩] ∧
        t.outstanding = s.outstanding ∧ t.mem = s.mem)
    (c.mode = .legacy32 → va.toNat < 2 ^ 32 →
      e2 = memReadQ s (bits (c.pdp (nbits va.toNat 31 30)) (s.par.haw - 1) 12 * 4096 + 8 * nbits va.toNat 29 21) →
      low → hangs (.ppgtt32Walk e k m a va)) ∧
    (c.mode = .legacy48 → va.toNat < 2 ^ 48 → s.par.gttCacheEnable = false →
      e4 = memReadQ s (bits c.pml4 (s.par.haw - 1) 12 * 4096 + 8 * nbits va.toNat 47 39) →
      e3 = memReadQ s (bits e4 (s.par.haw - 1) 12 * 4096 + 8 * nbits va.toNat 38 30) →
      e2 = memReadQ s (bits e3 (s.par.haw - 1) 12 * 4096 + 8 * nbits va.toNat 29 21) →
      ((bit e4 0 = false ∧ code = .notPresent ∧ l = .pml4) ∨
        (bit e4 0 = true ∧ bit e3 0 = false ∧ code = .notPresent ∧ l = .pdp) ∨
        (bit e4 0 = true ∧ bit e3 7 = true ∧ denied e3 ∧ code = .writePermission ∧ l = .pdp) ∨
        (bit e4 0 = true ∧ bit e3 0 = true ∧ bit e3 7 = false ∧ bit e2 7 = true ∧ denied e2 ∧
          code = .writePermission ∧ l = .pd) ∨
        (bit e4 0 = true ∧ bit e3 0 = true ∧ bit e3 7 = false ∧ (bit e2 0 = true → bit e2 7 = false) ∧ low)) →
      hangs (.ppgtt48Walk e k m a va))

/-- For a 48-bit legacy context on an engine that takes walks, a MOCS index below 62 with PFM 000, a client that may
make the access (R207), the GTT cache off and va below 2^48, with a present PML4E: the walk ends at the first of
PDPE with bit 7, PDE with bit 7, PTE; each entry read must be present. A leaf with bit 9 answers NullPage; otherwise
a read, or a write where leaf[1] = 1, answers Phys of the leaf's size, with pat 0 for large pages, where that
address is one a translation may give (U16). Nothing else changes. Derived: pat 0, bit 7 as page size and bit 11 as
IPS of legacy 48-bit entries are decision D14 and conflict C10 (R536, R576); the four indices and how addresses are
formed are inferences of R576 and R577. (R576, R577, R536, R526, R580, spec/92_eei_decisions.md,
spec/90_conflicts.md) -/
def Obligations.Ppgtt48WalkAnswersThePage : Prop :=
  ∀ (s : State) (e : Engine) (k : Client) (m : BitVec 6) (a : Acc) (va : QWord) (c : Ctx) (e4 e3 e2 e1 : QWord)
    (big : Bool) (leaf : QWord) (size : PageSize) (pat : Bool),
    (s.eng e).ctx = some c → c.mode = .legacy48 → m.toNat < 62 → walkWaits s (some e) = false →
    pfmField s e (some m) = 0 → (k.readOnly = true → isWrite a = false) →
     va.toNat < 2 ^ 48 → s.par.gttCacheEnable = false →
    e4 = memReadQ s (bits c.pml4 (s.par.haw - 1) 12 * 4096 + 8 * nbits va.toNat 47 39) → bit e4 0 = true →
    e3 = memReadQ s (bits e4 (s.par.haw - 1) 12 * 4096 + 8 * nbits va.toNat 38 30) → bit e3 0 = true →
    e2 = memReadQ s (bits e3 (s.par.haw - 1) 12 * 4096 + 8 * nbits va.toNat 29 21) →
    (bit e3 7 = false → bit e2 0 = true) → big = (c.enable64K s.par && bit e2 11) →
    e1 = memReadQ s (bits e2 (s.par.haw - 1) 12 * 4096 +
      (if big then 128 * nbits va.toNat 20 16 else 8 * nbits va.toNat 20 12)) →
    (bit e3 7 = false → bit e2 7 = false → bit e1 0 = true) →
    (leaf, size, pat) = (if bit e3 7 then (e3, .size1G, false) else if bit e2 7 then (e2, .size2M, false)
      else if big then (e1, .size64K, bit e1 7) else (e1, .size4K, bit e1 7)) →
    (bit leaf 9 = true → Answers (.ppgtt48Walk e k m a va) s (.xlate .nullPage)) ∧
    (bit leaf 9 = false → (isWrite a = false ∨ bit leaf 1 = true) →
      physOk s.par (bits leaf (s.par.haw - 1) size.log * 2 ^ size.log + va.toNat % 2 ^ size.log) 1 = true →
        Answers (.ppgtt48Walk e k m a va) s
      (.xlate (.phys (bits leaf (s.par.haw - 1) size.log * 2 ^ size.log + va.toNat % 2 ^ size.log) size pat
        (bit leaf 4) (bit leaf 3))))

/-- For an advanced context with ADEnable = 0 that may run (PASIDE = 1, no nesting), on an engine that takes walks,
a MOCS index below 62 with PFM 000, a client that may make the access (R207; not coherent HDC in fault model 01,
U49), va below 2^48 and entries that are present, have U/S = 1, R/W = 1 for a write, for a fetch (ERE = 1) XD = 0 if
NXE and no supervisor with SMEP, and their reserved bits clear (HAW to 51; bit 7 of the PML4E; 13 to 29 of a 1 GB
PDPE; 13 to 20 of a 2 MB PDE; 12 to 15 of a 64 KB PTE): the walk answers Phys of the leaf with the PAT bit of the
leaf's format, where that address is one a translation may give (U16), and changes nothing. Derived: R578 infers the
walk of a 64 KB page and R576 the four 9-bit indices; checking every reserved bit is D16 (R590). Pages without U/S,
unprotected supervisor writes and supervisor fetches under SMEP are left out. (R578, R576, R590,
spec/92_eei_decisions.md) -/
def Obligations.Ia32eWalkAnswersThePage : Prop :=
  ∀ (s : State) (e : Engine) (k : Client) (m : BitVec 6) (a : Acc) (va : QWord) (c : Ctx) (e4 e3 e2 e1 : QWord)
    (big : Bool) (leaf : QWord) (size : PageSize) (pat : Bool),
    (s.eng e).ctx = some c → c.mode = .advanced → c.adEnable = false →
    iommuRefusal c = none → m.toNat < 62 → walkWaits s (some e) = false →
    pfmField s e (some m) = 0 → (k.readOnly = true → isWrite a = false) → ¬(c.faultModel = 1 ∧ k = .hdcCoherent) →
    (a = .fetch → c.iommu.ere = true → (c.iommu.nxe = true → bit e4 63 = false ∧ bit e3 63 = false ∧
      (bit e3 7 = false → bit e2 63 = false ∧ (bit e2 7 = false → bit e1 63 = false))) ∧
      (c.supervisor = false ∨ c.iommu.sre = false ∨ c.iommu.smep = false)) →
    va.toNat < 2 ^ 48 →
    s.par.gttCacheEnable = false →
    e4 = memReadQ s (bits c.pml4 (s.par.haw - 1) 12 * 4096 + 8 * nbits va.toNat 47 39) →
    bit e4 0 = true → (isWrite a = true → bit e4 1 = true) → bit e4 2 = true →
      e4.toNat &&& (maskOf s.par.haw 51 ||| maskOf 7 7) = 0 →
    e3 = memReadQ s (bits e4 (s.par.haw - 1) 12 * 4096 + 8 * nbits va.toNat 38 30) →
    bit e3 0 = true → (isWrite a = true → bit e3 1 = true) → bit e3 2 = true →
      e3.toNat &&& (maskOf s.par.haw 51 ||| (if bit e3 7 then maskOf 13 29 else 0)) = 0 →
    e2 = memReadQ s (bits e3 (s.par.haw - 1) 12 * 4096 + 8 * nbits va.toNat 29 21) →
    (bit e3 7 = false → bit e2 0 = true ∧ (isWrite a = true → bit e2 1 = true) ∧ bit e2 2 = true ∧
      e2.toNat &&& (maskOf s.par.haw 51 ||| (if bit e2 7 then maskOf 13 20 else 0)) = 0) →
    big = (c.enable64K s.par && bit e2 11) →
    e1 = memReadQ s (bits e2 (s.par.haw - 1) 12 * 4096 +
      (if big then 128 * nbits va.toNat 20 16 else 8 * nbits va.toNat 20 12)) →
    (bit e3 7 = false → bit e2 7 = false → bit e1 0 = true ∧ (isWrite a = true → bit e1 1 = true) ∧ bit e1 2 = true ∧
      e1.toNat &&& (maskOf s.par.haw 51 ||| (if big then maskOf 12 15 else 0)) = 0) →
    (leaf, size, pat) = (if bit e3 7 then (e3, .size1G, bit e3 12) else if bit e2 7 then (e2, .size2M, bit e2 12)
      else if big then (e1, .size64K, bit e1 7) else (e1, .size4K, bit e1 7)) →
    physOk s.par (bits leaf (s.par.haw - 1) size.log * 2 ^ size.log + va.toNat % 2 ^ size.log) 1 = true →
    Answers (.ia32eWalk e k m a va) s
      (.xlate (.phys (bits leaf (s.par.haw - 1) size.log * 2 ^ size.log + va.toNat % 2 ^ size.log) size pat
        (bit leaf 4) (bit leaf 3)))

/-- For an advanced context with ADEnable = 1 that may run, in write-back memory, on an engine that takes walks, and
an access of any kind, by a client that may make it, to a page of 1 GB, 2 MB, 64 KB or 4 KB whose address a
translation may give and whose entries, the pointers and the leaf, lie in different QWords, are present with U/S =
1, R/W = 1 for a write, the rights of a fetch, and no reserved bit set: the walk answers the page, each entry
afterwards has A (and EA if EAFE) set and, for a write or an atomic, the leaf also D; no other byte of memory and
nothing else changes but the record of what the writes replaced. Derived: R578 infers the walk of a 64 KB page and
R576 the four 9-bit indices. Pages without U/S, unprotected supervisor writes, supervisor fetches under SMEP and A/D
writes outside write-back memory are left out. (R578, R576, R602, R752, R601, R600, R590) -/
def Obligations.Ia32eWalkSetsAccessedAndDirty : Prop :=
  ∀ (s : State) (e : Engine) (k : Client) (m : BitVec 6) (a : Acc) (va : QWord) (c : Ctx)
    (e4 e3 e2 e1 leaf acc : QWord) (a4 a3 a2 a1 al pa : Nat) (ptrs : List Nat) (big pat : Bool) (size : PageSize),
    Inv s → 13 ≤ s.par.haw → (s.eng e).ctx = some c → c.mode = .advanced → c.adEnable = true →
    iommuRefusal c = none → m.toNat < 62 → walkWaits s (some e) = false →
    pfmField s e (some m) = 0 → (k.readOnly = true → isWrite a = false) → ¬(c.faultModel = 1 ∧ k = .hdcCoherent) →
    va.toNat < 2 ^ 48 → s.par.gttCacheEnable = false → s.par.effTypes = [] → s.par.cd = false →
    a4 = bits c.pml4 (s.par.haw - 1) 12 * 4096 + 8 * nbits va.toNat 47 39 → e4 = memReadQ s a4 →
    a3 = bits e4 (s.par.haw - 1) 12 * 4096 + 8 * nbits va.toNat 38 30 → e3 = memReadQ s a3 →
    a2 = bits e3 (s.par.haw - 1) 12 * 4096 + 8 * nbits va.toNat 29 21 → e2 = memReadQ s a2 →
    big = (c.enable64K s.par && bit e2 11) →
    a1 = bits e2 (s.par.haw - 1) 12 * 4096 + (if big then 128 * nbits va.toNat 20 16 else 8 * nbits va.toNat 20 12) →
    e1 = memReadQ s a1 →
    (ptrs, al, leaf, size, pat) = (if bit e3 7 then ([a4], a3, e3, .size1G, bit e3 12)
      else if bit e2 7 then ([a4, a3], a2, e2, .size2M, bit e2 12)
      else ([a4, a3, a2], a1, e1, if big then .size64K else .size4K, bit e1 7)) →
    (al :: ptrs).Nodup →
    (∀ b ∈ al :: ptrs, bit (memReadQ s b) 0 = true ∧ (isWrite a = true → bit (memReadQ s b) 1 = true) ∧
      bit (memReadQ s b) 2 = true ∧ (memReadQ s b).toNat &&& maskOf s.par.haw 51 = 0) →
    bit e4 7 = false → leaf.toNat &&& (match size with
      | .size1G => maskOf 13 29 | .size2M => maskOf 13 20 | .size64K => maskOf 12 15 | .size4K => 0) = 0 →
    (a = .fetch → c.iommu.ere = true → (c.iommu.nxe = true → ∀ b ∈ al :: ptrs, bit (memReadQ s b) 63 = false) ∧
      (c.supervisor = false ∨ c.iommu.sre = false ∨ c.iommu.smep = false)) →
    pa = bits leaf (s.par.haw - 1) size.log * 2 ^ size.log + va.toNat % 2 ^ size.log → physOk s.par pa 1 = true →
    acc = (if c.iommu.eafe then 0x420 else 0x20) →
    NextWith (exec (.ia32eWalk e k m a va) s) (fun t =>
      t = { s with mem := t.mem, oldBytes := t.oldBytes, out := t.out } ∧
      t.out = .xlate (.phys pa size pat (bit leaf 4) (bit leaf 3)) ∧
      (∀ b ∈ ptrs, memReadQ t b = memReadQ s b ||| acc) ∧
      memReadQ t al = (if isWrite a then leaf ||| acc ||| 0x40 else leaf ||| acc) ∧
      ∀ x, (∀ b ∈ al :: ptrs, x < b ∨ b + 8 ≤ x) → Memory.read t.mem x = Memory.read s.mem x)

/-- For a render context that may run, on an engine that takes walks, with TR-TT on for va, no write still hidden
from the walker, and page tables that map the table reads made (addresses by the printed formulas, outside TR-VA):
an L3 entry with bit 1 or 0 set ends the walk, and so does an L2 entry under an L3 entry with both clear: bit 1
alone is Null, bit 0 alone Invalid, both the parameter TRTT_BOTH_BITS. L3 and L2 entries with bits 1:0 clear lead to
the L1 entry e1: equal to the null value it is Null, to the invalid value Invalid, else the answer is Mapped(e1 <<
16 | va[15:0]). Null counts one, Invalid posts TRTT_InvalidTile. Beside that only the model's own fields change: the
counter of free values by the number of table reads (log entries 2, 3) and the record of the last read's controls,
those of MOCS entry 62 (R244, R290). That a null tile counts one and an invalid tile does not is decision D11 (R504;
log entry 21); the parameter is U7 (R502). (R508, R499, R500, R501, R502, R504, R507, R244, R290,
spec/92_eei_decisions.md, spec/93_implementation_defined.md) -/
def Obligations.TrttWalkFindsTheTile : Prop :=
  ∀ (s : State) (c : Ctx) (va e3 e2 : QWord) (e1 : DWord) (a3 a2 a1 : Nat) (p3 p2 p1 : Nat) (z : PageSize)
    (pat pcd pwt d : Bool),
    (s.eng .render).ctx = some c → trttRefusal s c.mode va.toNat = none → iommuRefusal c = none →
    walkWaits s (some .render) = false → s.oldBytes = [] →
    a3 = bits s.trtt.l3ptr 47 16 * 65536 + 8 * nbits va.toNat 43 35 →
    a2 = bits e3 47 12 * 4096 + 8 * nbits va.toNat 34 26 → a1 = bits e2 47 12 * 4096 + 4 * nbits va.toNat 25 16 →
    e3 = BitVec.ofNat 64 (memRead s p3 8) → e2 = BitVec.ofNat 64 (memRead s p2 8) →
    e1 = BitVec.ofNat 32 (memRead s p1 4) →
    let place (a p n : Nat) : Prop := inTrva s a = false ∧ physOk s.par p n = true
    let reads (a p : Nat) : Prop := ∀ n w, ∃ size pat pcd pwt d,
      stage2 { s with freeCount := n, walkerCtl := w } false (some .render) .other (some c) c.mode a .read =
        (.ok (.phys p size pat pcd pwt) d, { s with freeCount := n, walkerCtl := w })
    let last (a p : Nat) : Prop := ∀ n w,
      stage2 { s with freeCount := n, walkerCtl := w } false (some .render) .other (some c) c.mode a .read =
        (.ok (.phys p z pat pcd pwt) d, { s with freeCount := n, walkerCtl := w })
    let u (k p : Nat) : State := { s with
      freeCount := s.freeCount + k
      walkerCtl := some (memoryControls { s with freeCount := s.freeCount + (k - 1) } (some .render) c.advanced .other
        (some 62) false pat pcd pwt p) }
    let null (k p : Nat) : Prop := exec (.trttWalk va) s =
      .next { u k p with nullTileCount := s.nullTileCount + 1, out := .trtt .null }
    let invalid (k p : Nat) : Prop := exec (.trttWalk va) s =
      .next { u k p with events := { s.events with driver := s.events.driver ++ [.trttInvalidTile va.toNat] }
                         out := .trtt .invalid }
    let ends (e : QWord) (k p : Nat) : Prop :=
      (bit e 1 = true → bit e 0 = false → null k p) ∧ (bit e 1 = false → bit e 0 = true → invalid k p) ∧
      (bit e 1 = true → bit e 0 = true → s.par.trttBothBits = .null → null k p) ∧
      (bit e 1 = true → bit e 0 = true → s.par.trttBothBits = .invalid → invalid k p)
    (place a3 p3 8 → last a3 p3 → ends e3 1 p3) ∧
    (place a3 p3 8 → reads a3 p3 → bit e3 0 = false → bit e3 1 = false →
      (place a2 p2 8 → last a2 p2 → ends e2 2 p2) ∧
      (place a2 p2 8 → reads a2 p2 → bit e2 0 = false → bit e2 1 = false → place a1 p1 4 → last a1 p1 →
        (e1 = s.trtt.nullDetect → null 3 p1) ∧
        (e1 = s.trtt.invalidDetect → e1 ≠ s.trtt.nullDetect → invalid 3 p1) ∧
        (e1 ≠ s.trtt.nullDetect → e1 ≠ s.trtt.invalidDetect → exec (.trttWalk va) s =
          .next { u 3 p1 with out := .trtt (.mapped (e1.toNat * 65536 + va.toNat % 65536)) })))

/-- Whatever the scope and structures, the operation answers a next state that differs only in remembered facts,
refetched context inputs and what the HDCs have in flight. Every engine the scope reaches (all; e; those running in
p) is as before but for its facts, a subset of the old ones, and, with the PASID or context cache, the IOMMU inputs
and PML4 pointer of an advanced context, which are those of its function and PASID now; every other engine is
unchanged. If the scope reaches the render engine, the mini-TLBs, the HDCs' responses, held and outstanding requests
and waiting HDC requests are gone, else they are unchanged; every other waiting request is kept. Scope "all" leaves
no fact of any engine or of accesses of no engine (which no other scope touches); "engine e" none of e; "PASID p"
none of an engine running in p; "page n of p" such an engine no per-process translation of page n in any TLB, no
faulted record of it, no copy in the GTT cache and no TR-TT fact, and, with the page-walk, PASID or context cache,
no paging entry. That scopes without a page drop the paging entries also when final TLBs only are asked for, that a
page drops every copy in the GTT cache and, with the page-walk caches, every paging entry, and that "all" reaches
the accesses of no engine, are the model's choices within R730 (log entry 32). That no TR-TT fact survives is
decision D20 (R716), the IOMMU entries that are refetched are inputs (log entry 17), and that dropped requests give
their credits back at once is log entry 32. (R730, R746, R713, R716, R703, R704, R724, R668,
spec/92_eei_decisions.md) -/
def Obligations.TlbInvalidationRemovesTheScope : Prop :=
  ∀ (s : State) (k : InvScope) (st : InvStructs), ∃ t : State, exec (.tlbInvalidate k st) s = .next t ∧
    t = { s with engines := t.engines, sharedFacts := t.sharedFacts, miniTlb := t.miniTlb, hdcPorts := t.hdcPorts
                 hdcResponses := t.hdcResponses, hdcQueue := t.hdcQueue, waiting := t.waiting, out := .none } ∧
    (let reached : Engine → Prop := fun e => k = .all ∨ k = .engine e ∨
       ∃ p, (k = .pasid p ∨ ∃ n, k = .page p n) ∧ (s.eng e).inPasid p = true
     (∀ e, reached e → t.eng e = { s.eng e with
         facts := (t.eng e).facts
         ctx := if (st.pasidCache || st.contextCache) = true then
             (s.eng e).ctx.map (fun c => if c.advanced = true then
               { c with iommu := findIommu s.iommu c.function c.pasid
                        pml4 := (findIommu s.iommu c.function c.pasid).pml4 } else c)
           else (s.eng e).ctx } ∧ ∀ x, x ∈ (t.eng e).facts → x ∈ (s.eng e).facts) ∧
     (∀ e, ¬ reached e → t.eng e = s.eng e) ∧
     (reached .render → t.miniTlb = [] ∧ t.hdcResponses = [] ∧ t.hdcQueue = [] ∧
       t.hdcPorts = s.hdcPorts.map (fun p => { p with outstanding := [] }) ∧
       ∀ w, w ∈ t.waiting ↔ w ∈ s.waiting ∧ ∀ q, w.req ≠ .hdc q) ∧
     (¬ reached .render → t.miniTlb = s.miniTlb ∧ t.hdcResponses = s.hdcResponses ∧ t.hdcQueue = s.hdcQueue ∧
       t.hdcPorts = s.hdcPorts ∧ t.waiting = s.waiting)) ∧
    (k = .all → (∀ e, (t.eng e).facts = []) ∧ t.sharedFacts = []) ∧
    (k ≠ .all → t.sharedFacts = s.sharedFacts) ∧
    (∀ e, k = .engine e → (t.eng e).facts = []) ∧
    (∀ p e, k = .pasid p → (s.eng e).inPasid p = true → (t.eng e).facts = []) ∧
    (∀ p n e, k = .page p n → (s.eng e).inPasid p = true →
      (∀ tlb x, .leaf tlb false x ∈ (t.eng e).facts → x.covers n.toNat = false) ∧
      (∀ tlb c f q, .faulted tlb n.toNat c f q ∉ (t.eng e).facts) ∧ (∀ a k v, .trEntry a k v ∉ (t.eng e).facts) ∧
      (∀ a r, .trTile a r ∉ (t.eng e).facts) ∧ (∀ a v, .gttEntry a v ∉ (t.eng e).facts) ∧
      ((st.pwc || st.pasidCache || st.contextCache) = true → ∀ a v, .entry a v ∉ (t.eng e).facts))

/-- A valid request of an HDC with a free credit, no invalidation in progress, the render engine able to issue
accesses for a context that may run (not coherent with fault model 01, U49), and its page translated to a physical
address that a translation may give, is answered by a response with the same slice, HDC, R/W and tracking number, PA
bits 38:12 (for every HAW, log entry 32), the dirty flag, code 00, the memory type and the fault model's mode bits
(without a fault log entry 32); the request is outstanding. Without a credit the HDC holds it back (log entry 26);
one that is not valid does nothing; one during an invalidation is dropped and takes no credit (R746; log entry 32).
(R742, R744, R745, R740, R114, R1302, R746, R1310) -/
def Obligations.HdcPageRequestIsAnswered : Prop :=
  ∀ (s s0 s1 : State) (m : PageReqMsg) (q : HdcReq) (c : Ctx) (pa : Nat) (size : PageSize) (pat pcd pwt d : Bool)
    (tab : Option Nat) (tile : Option TrttResult) (ts : List HdcAsked),
    q = { slice := m.slice, hdc := m.hdc, vpage := m.vpage, write := m.write, tracking := m.tracking,
          faultable := m.faultable } →
    ts = outstandingOf s.hdcPorts m.slice m.hdc →
    s0 = { s with hdcPorts := setOutstanding s.hdcPorts m.slice m.hdc (ts ++ [⟨m.tracking, m.vpage⟩]) } →
    (m.valid = false → Answers (.hdcPageReq m) s .none) ∧
    (m.valid = true → s.hdcInvalidating = true → Answers (.hdcPageReq m) s .dropped) ∧
    (m.valid = true → s.hdcInvalidating = false → 2 ≤ ts.length →
      exec (.hdcPageReq m) s = .next { s with hdcQueue := s.hdcQueue ++ [q], out := .waits }) ∧
    (m.valid = true → s.hdcInvalidating = false → ts.length < 2 →
      (s.eng .render).ctx = some c → engineHolds s (some .render) = false → iommuRefusal c = none →
      (c.advanced = true → c.faultModel.toNat = 1 → m.faultable = false) →
      translate s0 none (some .render) q.client (some c) c.mode (m.vpage.toNat * 4096) (if m.write then .write else .read) =
        (⟨.ok (.phys pa size pat pcd pwt) d, tab, tile⟩, s1) → physOk s1.par pa 1 = true →
          s1.hdcInvalidating = false →
      ∀ r : HdcResp, r = { slice := m.slice, hdc := m.hdc, pa := BitVec.ofNat 27 (pa / 4096), write := m.write,
                           d := d, code := .noFault, memType := hdcMemType s1 c q pat pcd pwt pa,
                           tracking := m.tracking, mode := modeOf s1 (some .render) q.client none false,
                           xlate := some (.phys pa size pat pcd pwt) } →
      exec (.hdcPageReq m) s = .next { s1 with hdcResponses := s1.hdcResponses ++ [r], out := .hdc r })

/-- A valid response r outside an invalidation leaves the bus (it may also be one that is not there) and is told; if
the named HDC has a request with its tracking number outstanding, the first such request is removed and, with code
00 and a translation behind r (else none: R1324, log entry 32), a mini-TLB entry with that request's page and r's
PA, R/W, D and memory type is first in the list; otherwise ports and mini-TLB are unchanged. If the HDC holds a
request back, its first one is then sent (log entry 26). A response during an invalidation is not sent; one that is
not valid does nothing. (R744, R718, R746, R114, R740, R1324) -/
def Obligations.HdcPageResponseIsClaimed : Prop :=
  ∀ (s : State) (m : PageRespMsg) (r : HdcResp) (rs : List HdcResp) (ts : List HdcAsked),
    let same (x : HdcResp) : Prop := x = {
      slice := m.slice, hdc := m.hdc, pa := m.pa, write := m.write, d := m.d,
      code := m.code, memType := m.memType, tracking := m.tracking, mode := m.mode, xlate := x.xlate }
    (m.valid = false → Answers (.hdcPageResp m) s .none) ∧
    (m.valid = true → s.hdcInvalidating = true → Answers (.hdcPageResp m) s .dropped) ∧
    (m.valid = true → s.hdcInvalidating = false → same r →
      ((∃ p q, s.hdcResponses = p ++ r :: q ∧ rs = p ++ q ∧ ∀ x ∈ p, ¬ same x) ∨
        (r.xlate = none ∧ rs = s.hdcResponses ∧ ∀ x ∈ s.hdcResponses, ¬ same x)) →
      ts = outstandingOf s.hdcPorts m.slice m.hdc →
      ((∀ q ∈ s.hdcQueue, ¬(q.slice = m.slice ∧ q.hdc = m.hdc)) → (∀ x ∈ ts, x.tracking ≠ m.tracking) →
        exec (.hdcPageResp m) s = .next { s with hdcResponses := rs, out := .hdc r }) ∧
      ((∀ q ∈ s.hdcQueue, ¬(q.slice = m.slice ∧ q.hdc = m.hdc)) →
        ∀ p y q, ts = p ++ y :: q → y.tracking = m.tracking → (∀ x ∈ p, x.tracking ≠ m.tracking) →
        NextWith (exec (.hdcPageResp m) s) (fun t =>
          t = { s with hdcResponses := rs, out := .hdc r, hdcPorts := t.hdcPorts, miniTlb := t.miniTlb } ∧
          outstandingOf t.hdcPorts m.slice m.hdc = p ++ q ∧
          (∀ x z, ¬(x = m.slice ∧ z = m.hdc) → outstandingOf t.hdcPorts x z = outstandingOf s.hdcPorts x z) ∧
          (m.code ≠ .noFault ∨ r.xlate = none → t.miniTlb = s.miniTlb) ∧
          ∀ x, m.code = .noFault → r.xlate = some x →
            t.miniTlb = ⟨m.slice, m.hdc, y.vpage, m.pa, m.write, m.d, m.memType, x⟩ :: s.miniTlb)) ∧
      ∀ p q l, s.hdcQueue = p ++ q :: l → q.slice = m.slice → q.hdc = m.hdc →
        (∀ x ∈ p, ¬(x.slice = m.slice ∧ x.hdc = m.hdc)) →
        exec (.hdcPageResp m) s = outcome (sendPageReq q { claimResponse s m with hdcQueue := p ++ l }))

/-- Start, with no handshake in progress, empties every mini-TLB, the bus, every HDC's outstanding, held and waiting
requests and opens a handshake with no acknowledgement (that the credits of dropped requests are back at once is log
entry 32); a second start joins it and changes nothing (log entry 26); an acknowledgement in a handshake records its
HDC once; an end ends the handshake when every HDC has acknowledged, and the requests that wait are made again (step
5); before that it waits (log entry 26). Outside a handshake an acknowledgement or an end has no effect (log entry
26). Memory and registers are unchanged by start and acknowledgement, and by an end with nothing waiting. (R746) -/
def Obligations.HdcInvalidationHandshake : Prop :=
  ∀ (s : State) (x y : BitVec 2),
    (s.hdcInvalidating = false → NextWith (exec (.hdcTlbInv .start) s) (fun t =>
      t = { s with
        miniTlb := [], hdcResponses := [], hdcQueue := [], hdcInvalidating := true, hdcAcks := [], out := .none,
        hdcPorts := s.hdcPorts.map (fun p => ⟨p.slice, p.hdc, []⟩), waiting := t.waiting } ∧
      (∀ w ∈ t.waiting, w ∈ s.waiting ∧ ∀ q, w.req ≠ .hdc q) ∧
      ∀ w ∈ s.waiting, (∀ q, w.req ≠ .hdc q) → w ∈ t.waiting)) ∧
    (s.hdcInvalidating = true → Answers (.hdcTlbInv .start) s .none) ∧
    (s.hdcInvalidating = true → NextWith (exec (.hdcTlbInv (.ack x y)) s) (fun t =>
      t = { s with hdcAcks := t.hdcAcks, out := .none } ∧ (x, y) ∈ t.hdcAcks ∧
        (∀ z, z ∈ t.hdcAcks → z ∈ s.hdcAcks ∨ z = (x, y)) ∧ ∀ z, z ∈ s.hdcAcks → z ∈ t.hdcAcks)) ∧
    (s.hdcInvalidating = true → (∀ h ∈ s.par.hdcs, h ∈ s.hdcAcks) → exec (.hdcTlbInv .stop) s =
      outcome (retryRequests { s with hdcInvalidating := false, hdcAcks := [], out := .none })) ∧
    (s.hdcInvalidating = true → (∀ h ∈ s.par.hdcs, h ∈ s.hdcAcks) → s.waiting = [] → exec (.hdcTlbInv .stop) s =
      .next { s with hdcInvalidating := false, hdcAcks := [], out := .none }) ∧
    (s.hdcInvalidating = true → (∃ h ∈ s.par.hdcs, h ∉ s.hdcAcks) → Answers (.hdcTlbInv .stop) s .waits) ∧
    (s.hdcInvalidating = false → Answers (.hdcTlbInv (.ack x y)) s .none ∧ Answers (.hdcTlbInv .stop) s .none)

/-- Each of the eight operations on the PTE at an 8-byte aligned address below 2^HAW answers the old and the new
value of the QWord, stores the new one and changes no other byte and nothing else: A (and EA when bit 1 of the
opcode is set) is set in a present entry, and D for a write that is allowed; a not-present entry is unchanged.
Memory canonical as a premise (invariant stated separately). (R752, R760, R761, R762, R763, R764, R765, R766, R767)
-/
def Obligations.FinalEntryPageUpdates : Prop :=
  ∀ (s : State) (addr : BitVec 64), Inv s → addr.toNat % 8 = 0 → addr.toNat < 2 ^ s.par.haw →
    UpdatesQWord (.pageUpdate0000 addr) addr.toNat (fun old =>
      if bit old 0 then old ||| 0x20 else old) s ∧
    UpdatesQWord (.pageUpdate0001 addr) addr.toNat (fun old =>
      if bit old 0 then old ||| 0x60 else old) s ∧
    UpdatesQWord (.pageUpdate0010 addr) addr.toNat (fun old =>
      if bit old 0 then old ||| 0x20 ||| 0x400 else old) s ∧
    UpdatesQWord (.pageUpdate0011 addr) addr.toNat (fun old =>
      if bit old 0 then old ||| 0x60 ||| 0x400 else old) s ∧
    UpdatesQWord (.pageUpdate0100 addr) addr.toNat (fun old =>
      if bit old 0 then old ||| 0x20 else old) s ∧
    UpdatesQWord (.pageUpdate0101 addr) addr.toNat (fun old =>
      if bit old 0 then (if bit old 1 then old ||| 0x60 else old ||| 0x20) else old) s ∧
    UpdatesQWord (.pageUpdate0110 addr) addr.toNat (fun old =>
      if bit old 0 then old ||| 0x20 ||| 0x400 else old) s ∧
    UpdatesQWord (.pageUpdate0111 addr) addr.toNat (fun old =>
      if bit old 0 then (if bit old 1 then old ||| 0x60 ||| 0x400 else old ||| 0x20 ||| 0x400) else old) s

/-- As for the final entries, at an 8-byte aligned address below 2^HAW, but D is set only if bit 7 says that the
entry maps a large page, and a write that is not allowed at an entry that maps none leaves the entry untouched.
(R752, R768, R769, R770, R771, R772, R773, R774, R775) -/
def Obligations.IntermediateEntryPageUpdates : Prop :=
  ∀ (s : State) (addr : BitVec 64), Inv s → addr.toNat % 8 = 0 → addr.toNat < 2 ^ s.par.haw →
    UpdatesQWord (.pageUpdate1000 addr) addr.toNat (fun old =>
      if bit old 0 then old ||| 0x20 else old) s ∧
    UpdatesQWord (.pageUpdate1001 addr) addr.toNat (fun old =>
      if bit old 0 then (if bit old 7 then old ||| 0x60 else old ||| 0x20) else old) s ∧
    UpdatesQWord (.pageUpdate1010 addr) addr.toNat (fun old =>
      if bit old 0 then old ||| 0x20 ||| 0x400 else old) s ∧
    UpdatesQWord (.pageUpdate1011 addr) addr.toNat (fun old =>
      if bit old 0 then (if bit old 7 then old ||| 0x60 ||| 0x400 else old ||| 0x20 ||| 0x400) else old) s ∧
    UpdatesQWord (.pageUpdate1100 addr) addr.toNat (fun old =>
      if bit old 0 then old ||| 0x20 else old) s ∧
    UpdatesQWord (.pageUpdate1101 addr) addr.toNat (fun old =>
      if bit old 0 then (if bit old 1 then (if bit old 7 then old ||| 0x60 else old ||| 0x20)
        else (if bit old 7 then old ||| 0x20 else old)) else old) s ∧
    UpdatesQWord (.pageUpdate1110 addr) addr.toNat (fun old =>
      if bit old 0 then old ||| 0x20 ||| 0x400 else old) s ∧
    UpdatesQWord (.pageUpdate1111 addr) addr.toNat (fun old =>
      if bit old 0 then (if bit old 1 then (if bit old 7 then old ||| 0x60 ||| 0x400 else old ||| 0x20 ||| 0x400)
        else (if bit old 7 then old ||| 0x20 ||| 0x400 else old)) else old) s

/-- The five A updates are "if E[0] then E | 0x20 else E", the three AD updates "if E[0] and E[1] then E | 0x60 else
E", on the QWord their address aims at; no other byte of memory and nothing else changes. An 8-byte aligned address
below 2^HAW aims at itself; that any other aims at the aligned QWord below 2^HAW is log entry 13 (DEDUCED). (R781,
R782, R783, R784, R785, R786, R787, R788) -/
def Obligations.UnopcodedAtomicUpdates : Prop :=
  ∀ (s : State) (addr : BitVec 64), Inv s →
    UpdatesQWord (.aUpdate000 addr) (atomicTarget s addr) (fun old => if bit old 0 then old ||| 0x20 else old) s ∧
    UpdatesQWord (.aUpdate001 addr) (atomicTarget s addr) (fun old => if bit old 0 then old ||| 0x20 else old) s ∧
    UpdatesQWord (.aUpdate010 addr) (atomicTarget s addr) (fun old => if bit old 0 then old ||| 0x20 else old) s ∧
    UpdatesQWord (.aUpdate011 addr) (atomicTarget s addr) (fun old => if bit old 0 then old ||| 0x20 else old) s ∧
    UpdatesQWord (.aUpdate100 addr) (atomicTarget s addr) (fun old => if bit old 0 then old ||| 0x20 else old) s ∧
    UpdatesQWord (.adUpdate101 addr) (atomicTarget s addr) (fun old => if bit old 0 && bit old 1 then old |||
      0x60 else old) s ∧
    UpdatesQWord (.adUpdate110 addr) (atomicTarget s addr) (fun old => if bit old 0 && bit old 1 then old |||
      0x60 else old) s ∧
    UpdatesQWord (.adUpdate111 addr) (atomicTarget s addr) (fun old => if bit old 0 && bit old 1 then old |||
      0x60 else old) s ∧
    (addr.toNat % 8 = 0 → addr.toNat < 2 ^ s.par.haw → atomicTarget s addr = addr.toNat)

/-- FMT.R1 answers bit k in all four channels; each palette format answers the palette entry its index bits select,
with the alpha bits of the format as n/255 (4-bit alphas in both nibbles) or the 32-bit entry as it is; P2 takes the
index at texel k in the order the parameter names (U19); the four YUV formats answer two pixels (V, Y, U) from the
byte table. Nothing else changes. Alpha 1.0 of YUV is a decision of the spec (D29). The byte table of the four YUV
formats, the orders of YCRCB_NORMAL and YCRCB_SWAPY among them, is derived by R881 itself. (R824, R827, R828, R829,
R830, R831, R832, R881, R880, R822) -/
def Obligations.SimpleFormatsDecode : Prop :=
  ∀ s : State,
    (∀ (b : BitVec 8) (k : BitVec 3),
      let t : Chan := .unorm (if bit b k.toNat then 1 else 0) 1
      Answers (.fmtR1 b k) s (.texel ⟨t, t, t, t⟩)) ∧
    (∀ (p : BitVec 8) (c : DWord),
      (s.palette[bits p 3 0]? = some c →
        Answers (.fmtP4A4 p) s (.paletteRgb (c.extractLsb' 0 24) (.unorm (17 * bits p 7 4) 255))) ∧
      (s.palette[bits p 7 4]? = some c →
        Answers (.fmtA4P4 p) s (.paletteRgb (c.extractLsb' 0 24) (.unorm (17 * bits p 3 0) 255))) ∧
      (s.palette[p.toNat]? = some c → Answers (.fmtP8 p) s (.argb c)) ∧
      ∀ k : BitVec 2, s.palette[(p.toNat >>> (if s.par.p2LowFirst then 2 * k.toNat else 6 - 2 * k.toNat)) % 4]? =
        some c →
        Answers (.fmtP2 p k) s (.argb c)) ∧
    (∀ (p : BitVec 16) (c : DWord),
      (s.palette[bits p 7 0]? = some c →
        Answers (.fmtP8A8 p) s (.paletteRgb (c.extractLsb' 0 24) (.unorm (bits p 15 8) 255))) ∧
      (s.palette[bits p 15 8]? = some c →
        Answers (.fmtA8P8 p) s (.paletteRgb (c.extractLsb' 0 24) (.unorm (bits p 7 0) 255)))) ∧
    (∀ v : BitVec 32,
      let b0 : Chan := .unorm (bits v 7 0) 255
      let b1 : Chan := .unorm (bits v 15 8) 255
      let b2 : Chan := .unorm (bits v 23 16) 255
      let b3 : Chan := .unorm (bits v 31 24) 255
      let px (y cb cr : Chan) : Texel := ⟨cr, y, cb, .unorm 1 1⟩
      Answers (.fmtYuv422 .normal v) s (.texels (px b0 b1 b3) (px b2 b1 b3)) ∧
      Answers (.fmtYuv422 .swapUvy v) s (.texels (px b1 b2 b0) (px b3 b2 b0)) ∧
      Answers (.fmtYuv422 .swapUv v) s (.texels (px b0 b3 b1) (px b2 b3 b1)) ∧
      Answers (.fmtYuv422 .swapY v) s (.texels (px b1 b0 b2) (px b3 b0 b2)))

/-- For every block and texel, with s the sub-block and m the table value of the texel's index in the sub-block's
column: an individual block answers clamp255(17*c4 + m) per channel, a differential one with sums in 0..31
clamp255(ext5(c5) + m); alpha is 1.0. A differential sum out of range still answers a texel with alpha 1.0, its
three colours free (U20, counter +3). Clamping (D30) and the default alpha (D29) are the spec's decisions. (R837,
R838, R839, R840, R841, spec/93_implementation_defined.md) -/
def Obligations.Etc1Decodes : Prop :=
  ∀ (s : State) (v : BitVec 64) (n : Pos),
    let sub := if bit v 24 then n.row.toNat / 2 else n.col.toNat / 2
    let k := (4 * n.col.toNat + n.row.toNat + 8) % 16
    let m := lum (2 * bits v (32 + k) (32 + k) + bits v (48 + k) (48 +
      k)) (if sub = 0 then bits v 31 29 else bits v 28 26)
    let ch (x : Nat) : Chan := .unorm (clamp255 ((x : Int) + m)) 255
    let d := diffSums v
    (bit v 25 = false → Answers (.etc1 v n) s (.texel
      ⟨ch (17 * (if sub = 0 then bits v 7 4 else bits v 3 0)),
        ch (17 * (if sub = 0 then bits v 15 12 else bits v 11 8)),
       ch (17 * (if sub = 0 then bits v 23 20 else bits v 19 16)), .unorm 1 1⟩)) ∧
    (bit v 25 = true → 0 ≤ d.r → d.r ≤ 31 → 0 ≤ d.g → d.g ≤ 31 → 0 ≤ d.b → d.b ≤ 31 →
      Answers (.etc1 v n) s (.texel
        ⟨ch (ext5 (if sub = 0 then bits v 7 3 else d.r.toNat)),
          ch (ext5 (if sub = 0 then bits v 15 11 else d.g.toNat)),
         ch (ext5 (if sub = 0 then bits v 23 19 else d.b.toNat)), .unorm 1 1⟩)) ∧
    (bit v 25 = true → diffInRange v = false → ∃ r g b : BitVec 8, exec (.etc1 v n) s = .next
      { s with freeCount := s.freeCount + 3
               out := .texel ⟨.unorm r.toNat 255, .unorm g.toNat 255, .unorm b.toNat 255, .unorm 1 1⟩ })

/-- An individual block, and a differential one with its three sums in range, decode as ETC1. Red out of range: T
mode, the printed palette of index i; red in range and green out: H mode; red and green in range and blue out:
planar, each channel clamp255((x*(H-O) + y*(V-O) + 4*O + 2) div 4). sRGB only passes the three colours through
SrgbToLinear. The rounding of planar mode is the spec's from general knowledge (U21). Alpha 1.0 is decision D29
(R822); SrgbToLinear is an opaque function (R850, log entry 4). (R844, R845, R847, R848, R849, R822, R850,
spec/92_eei_decisions.md, spec/93_implementation_defined.md) -/
def Obligations.Etc2SelectsItsModes : Prop :=
  ∀ (s : State) (v : BitVec 64) (n : Pos),
    let i := etcIndex v n
    let d := diffSums v
    let px (r g b : Int) : Texel :=
      ⟨.unorm (clamp255 r) 255, .unorm (clamp255 g) 255, .unorm (clamp255 b) 255, .unorm 1 1⟩
    (bit v 25 = false ∨ diffInRange v = true → exec (.etc2 v n false) s = exec (.etc1 v n) s) ∧
    (bit v 25 = true → in31 d.r = false →
      let r0 : Int := 17 * (4 * bits v 4 3 + bits v 1 0 : Nat)
      let g0 : Int := 17 * (bits v 15 12 : Nat)
      let b0 : Int := 17 * (bits v 11 8 : Nat)
      let r1 : Int := 17 * (bits v 23 20 : Nat)
      let g1 : Int := 17 * (bits v 19 16 : Nat)
      let b1 : Int := 17 * (bits v 31 28 : Nat)
      let e := etcDist (2 * bits v 27 26 + bits v 24 24)
      Answers (.etc2 v n false) s (.texel (if i = 0 then px r0 g0 b0 else if i = 1 then px (r1 + e) (g1 + e) (b1 + e)
        else if i = 2 then px r1 g1 b1 else px (r1 - e) (g1 - e) (b1 - e)))) ∧
    (bit v 25 = true → in31 d.r = true → in31 d.g = false →
      let r0 : Int := 17 * (bits v 6 3 : Nat)
      let g0 : Int := 17 * (2 * bits v 2 0 + bits v 12 12 : Nat)
      let b0 : Int := 17 * (8 * bits v 11 11 + 2 * bits v 9 8 + bits v 23 23 : Nat)
      let r1 : Int := 17 * (bits v 22 19 : Nat)
      let g1 : Int := 17 * (2 * bits v 18 16 + bits v 31 31 : Nat)
      let b1 : Int := 17 * (bits v 30 27 : Nat)
      let e := etcDist (4 * bits v 26 26 + 2 * bits v 24 24 +
        (if r0 * 65536 + g0 * 256 + b0 ≥ r1 * 65536 + g1 * 256 + b1 then 1 else 0))
      Answers (.etc2 v n false) s (.texel (if i = 0 then px (r0 + e) (g0 + e) (b0 + e)
        else if i = 1 then px (r0 - e) (g0 - e) (b0 - e) else if i = 2 then px (r1 + e) (g1 + e) (b1 + e)
        else px (r1 - e) (g1 - e) (b1 - e)))) ∧
    (bit v 25 = true → in31 d.r = true → in31 d.g = true → in31 d.b = false →
      let f (o h w : Nat) : Int :=
        ((n.col.toNat : Int) * ((h : Int) - o) + n.row.toNat * ((w : Int) - o) + 4 * o + 2) / 4
      Answers (.etc2 v n false) s (.texel (px
        (f (ext6 (bits v 6 1)) (ext6 (2 * bits v 30 26 + bits v 24 24)) (ext6 (8 * bits v 42 40 + bits v 55 53)))
        (f (ext7 (64 * bits v 0 0 + bits v 14 9)) (ext7 (bits v 39 33)) (ext7 (4 * bits v 52 48 + bits v 63 62)))
        (f (ext6 (32 * bits v 8 8 + 8 * bits v 20 19 + 2 * bits v 17 16 + bits v 31 31))
          (ext6 (32 * bits v 32 32 + bits v 47 43)) (ext6 (bits v 61 56)))))) ∧
    (∃ r g b : Nat, Answers (.etc2 v n false) s (.texel ⟨.unorm r 255, .unorm g 255, .unorm b 255, .unorm 1 1⟩) ∧
      Answers (.etc2 v n true) s (.texel ⟨.linear (Config.srgbToLinear (BitVec.ofNat 8 r)),
        .linear (Config.srgbToLinear (BitVec.ofNat 8 g)), .linear (Config.srgbToLinear (BitVec.ofNat 8 b)),
        .unorm 1 1⟩))

/-- Let w be the block with bit 25 set. If the opaque bit is set, or the mode is planar, or the texel's index is 1
or 3, or it is 0 in T or H mode, the texel is that of ETC2.DECODE of w with alpha 255. With the opaque bit clear and
not planar, index 2 gives (0, 0, 0, 0), and index 0 of a differential block the base colour of its sub-block with
alpha 255 (modifier 0). (R859, R860, R862, R844) -/
def Obligations.Etc2PunchThroughAlpha : Prop :=
  ∀ (s : State) (v : BitVec 64) (n : Pos) (srgb : Bool),
    let w := v ||| 0x2000000
    let d := diffSums v
    ((bit v 25 = true ∨ etc2Mode true v = .planar ∨ etcIndex v n = 1 ∨ etcIndex v n = 3 ∨
        (etcIndex v n = 0 ∧ etc2Mode true v ≠ .differential)) →
      ∃ x, Answers (.etc2 w n srgb) s (.texel x) ∧
        Answers (.etc2Pta v n srgb) s (.texel { x with a := .unorm 255 255 })) ∧
    (bit v 25 = false → etc2Mode true v ≠ .planar → etcIndex v n = 2 →
      Answers (.etc2Pta v n srgb) s (.texel (rgbTexel srgb 0 0 0 (.unorm 0 255)))) ∧
    (bit v 25 = false → etc2Mode true v = .differential → etcIndex v n = 0 →
      Answers (.etc2Pta v n srgb) s (.texel (if etcSub v n
        then rgbTexel srgb (ext5 d.r.toNat) (ext5 d.g.toNat) (ext5 d.b.toNat) (.unorm 255 255)
        else rgbTexel srgb (ext5 (bits v 7 3)) (ext5 (bits v 15 11)) (ext5 (bits v 23 19)) (.unorm 255 255))))

/-- With W the bytes 2 to 7 big-endian and im the table value of the texel's index W[47-3n:45-3n] in column V[11:8]:
R11 unsigned answers clamp(8*R0 + 4 + im*(8m or 1), 0, 2047)/2047, signed clamp(8*max(-127, R0) + ..., -1023,
1023)/1023, R8 clamp255(R0 + im*m)/255, in red. RG11 takes red from the low 8 bytes and green from the high 8; RGBA8
the alpha by R8 from the low 8 bytes and the colour by ETC2 from the high 8. Channels not supplied are 0, alpha 1.0
(D29). That R8 answers in red is log entry 30. The divisors 2047 and 1023 of R11 are derived by R854 itself. (R852,
R853, R854, R864, R865, R868, spec/92_eei_decisions.md) -/
def Obligations.EacDecodes : Prop :=
  ∀ (s : State) (n : Pos),
    (∀ v : BitVec 64,
      let w := bits v 23 16 * 2 ^ 40 + bits v 31 24 * 2 ^ 32 + bits v 39 32 * 2 ^ 24 + bits v 47 40 * 2 ^ 16 +
        bits v 55 48 * 2 ^ 8 + bits v 63 56
      let im := eacModifier (w / 2 ^ (45 - 3 * (4 * n.col.toNat + n.row.toNat)) % 8) (bits v 11 8)
      let m : Int := (bits v 15 12 : Nat)
      Answers (.eacR11 v n false) s (.texel ⟨.unorm (max 0 (min 2047
        (8 * (bits v 7 0 : Int) + 4 + if m = 0 then im else im * m * 8))).toNat 2047, .unorm 0 1, .unorm 0 1,
        .unorm 1 1⟩) ∧
      Answers (.eacR11 v n true) s (.texel ⟨.snorm (max (-1023) (min 1023
        (8 * max (-127) (v.extractLsb' 0 8).toInt + if m = 0 then im else im * m * 8))) 1023, .unorm 0 1, .unorm 0 1,
        .unorm 1 1⟩) ∧
      Answers (.eacR8 v n) s (.texel ⟨.unorm (clamp255 ((bits v 7 0 : Int) + im * m)) 255, .unorm 0 1, .unorm 0 1,
        .unorm 1 1⟩)) ∧
    (∀ (v : BitVec 128) (signed : Bool), ∃ x y : Texel,
      Answers (.eacR11 (v.extractLsb' 0 64) n signed) s (.texel x) ∧
      Answers (.eacR11 (v.extractLsb' 64 64) n signed) s (.texel y) ∧
      Answers (.eacRg11 v n signed) s (.texel ⟨x.r, y.r, .unorm 0 1, .unorm 1 1⟩)) ∧
    (∀ (v : BitVec 128) (srgb : Bool), ∃ x y : Texel,
      Answers (.eacR8 (v.extractLsb' 0 64) n) s (.texel x) ∧
      Answers (.etc2 (v.extractLsb' 64 64) n srgb) s (.texel y) ∧
      Answers (.etc2EacRgba8 v n srgb) s (.texel { y with a := x.r }))

/-- Bit 127 set: CC_MIXED; else bit 126 clear: CC_HI; else bit 125 clear: CC_CHROMA; else CC_ALPHA: the operation
answers exactly what that row answers. Every 128-bit value is a valid block, and the answer is a next state. (R925)
-/
def Obligations.Fxt1SelectsItsMode : Prop :=
  ∀ (s : State) (v : BitVec 128) (t : BitVec 5),
    exec (.fxt1 v t) s = (if v.getLsbD 127 then exec (.fxt1Mixed v t) s
      else if v.getLsbD 126 = false then exec (.fxt1Hi v t) s
      else if v.getLsbD 125 = false then exec (.fxt1Chroma v t) s else exec (.fxt1Alpha v t) s) ∧
    ∃ r g b a : Nat, Answers (.fxt1 v t) s (.texel ⟨.unorm r 255, .unorm g 255, .unorm b 255, .unorm a 255⟩)

/-- CC_HI: select 7 is transparent black; select k below 7 is ((6-k)*C0 + k*C1 + 3)/6 per channel with alpha 255, C0
and C1 expanded from R5G5B5. CC_CHROMA: select k is the expanded colour of the 15 bits from bit 64 + 15k, alpha 255.
Derived: that the division truncates is decision D31 (R921, U22). (R926, R928, R922, R921, spec/92_eei_decisions.md)
-/
def Obligations.Fxt1HiAndChromaDecode : Prop :=
  ∀ (s : State) (v : BitVec 128) (t : BitVec 5),
    (let k := bits v (3 * t.toNat + 2) (3 * t.toNat)
     let ch (c0 c1 : Nat) : Chan := .unorm (((6 - k) * e5 c0 + k * e5 c1 + 3) / 6) 255
     Answers (.fxt1Hi v t) s (.texel (if k = 7 then ⟨.unorm 0 255, .unorm 0 255, .unorm 0 255, .unorm 0 255⟩
        else ⟨ch (bits v 110 106) (bits v 125 121), ch (bits v 105 101) (bits v 120 116),
              ch (bits v 100 96) (bits v 115 111), .unorm 255 255⟩))) ∧
    (let k := bits v (2 * t.toNat + 1) (2 * t.toNat)
     Answers (.fxt1Chroma v t) s (.texel ⟨.unorm (e5 (bits v (64 + 15 * k + 14) (64 + 15 * k + 10))) 255,
        .unorm (e5 (bits v (64 + 15 * k + 9) (64 + 15 * k + 5))) 255,
        .unorm (e5 (bits v (64 + 15 * k + 4) (64 + 15 * k))) 255, .unorm 255 255⟩))

/-- With X and Y the two colours of the texel's half and k its select: CC_MIXED with bit 124 clear interpolates by
(2X+Y+1)/3 and (X+2Y+1)/3 between R5G6B5 colours whose green LSBs are those of R932; with bit 124 set it uses
(X+Y)/2 and transparent black. CC_ALPHA with bit 124 set interpolates colour and alpha between colour 0 (texels 0 to
15) or 2 and colour 1; with it clear it looks up three colours and transparent black. Truncating division, and no
rounding term where none is printed, are decision D31 (R921); that texels 16 to 31 have the +1 too is the spec's
resolution C39 (R932). (R922, R932, R934, R936, R938, R940, R921, spec/92_eei_decisions.md, spec/90_conflicts.md) -/
def Obligations.Fxt1MixedAndAlphaDecode : Prop :=
  ∀ (s : State) (v : BitVec 128) (t : BitVec 5),
    let k := bits v (2 * t.toNat + 1) (2 * t.toNat)
    let h := t.toNat < 16
    let lerp (x y : Nat) : Chan := .unorm (if k = 0 then x else if k = 1 then (2 * x + y + 1) / 3
      else if k = 2 then (x + 2 * y + 1) / 3 else y) 255
    let mid (x y : Nat) : Chan :=
      .unorm (if k = 0 then x else if k = 1 then (x + y) / 2 else if k = 2 then y else 0) 255
    let o := if h then 64 else 94
    let gy := if h then bits v 125 125 else bits v 126 126
    let gx := if h then bits v 1 1 ^^^ bits v 125 125 else bits v 33 33 ^^^ bits v 126 126
    let a := if h then 109 else 119
    (bit v 124 = false →
      Answers (.fxt1Mixed v t) s (.texel
        ⟨lerp (e5 (bits v (o + 14) (o + 10))) (e5 (bits v (o + 29) (o + 25))),
         lerp (e6 (2 * bits v (o + 9) (o + 5) + gx)) (e6 (2 * bits v (o + 24) (o + 20) + gy)),
         lerp (e5 (bits v (o + 4) o)) (e5 (bits v (o + 19) (o + 15))), .unorm 255 255⟩)) ∧
    (bit v 124 = true →
      Answers (.fxt1Mixed v t) s (.texel
        ⟨mid (e5 (bits v (o + 14) (o + 10))) (e5 (bits v (o + 29) (o + 25))),
         mid (e5 (bits v (o + 9) (o + 5))) (e6 (2 * bits v (o + 24) (o + 20) + gy)),
         mid (e5 (bits v (o + 4) o)) (e5 (bits v (o + 19) (o + 15))), .unorm (if k = 3 then 0 else 255) 255⟩)) ∧
    (bit v 124 = true →
      Answers (.fxt1Alpha v t) s (.texel
        ⟨lerp (e5 (bits v (o + 14) (o + 10))) (e5 (bits v 93 89)), lerp (e5 (bits v (o + 9) (o +
          5))) (e5 (bits v 88 84)),
         lerp (e5 (bits v (o + 4) o)) (e5 (bits v 83 79)), lerp (e5 (bits v (a + 4) a)) (e5 (bits v 118 114))⟩)) ∧
    (bit v 124 = false →
      let o := 64 + 15 * k
      let a := 109 + 5 * k
      Answers (.fxt1Alpha v t) s (.texel (if k = 3 then ⟨.unorm 0 255, .unorm 0 255, .unorm 0 255, .unorm 0 255⟩
        else ⟨.unorm (e5 (bits v (o + 14) (o + 10))) 255, .unorm (e5 (bits v (o + 9) (o + 5))) 255,
              .unorm (e5 (bits v (o + 4) o)) 255, .unorm (e5 (bits v (a + 4) a)) 255⟩)))

/-- DXT1 with c0 > c1, and DXT1_RGB always: codes 0 to 3 are X, Y, (2X+Y)/3, (X+2Y)/3, alpha 255. DXT1 with c0 <=
c1: X, Y, (X+Y)/2 and (0, 0, 0, 0). DXT3 and DXT5 take the colour as DXT1_RGB does from bits 127:64; DXT3's alpha is
17 times its 4 bits, DXT5's the value of R964 its 3-bit code selects. Expansion (D31), transparent colour (D32) and
DXT3 alpha (D33) are the spec's decisions. That the sRGB variants of the DXT formats pass R, G and B through
SrgbToLinear is log entry 32 (DESIGN CHOICE: R955 and R957 do not say it). (R921, R922, R955, R957, R962, R964,
R966) -/
def Obligations.DxtBlocksDecode : Prop :=
  ∀ (s : State) (n : Pos),
    let p := 4 * n.row.toNat + n.col.toNat
    (∀ (v : BitVec 64) (srgb : Bool),
      let k := bits v (32 + 2 * p + 1) (32 + 2 * p)
      let f (x y : Nat) : Nat := if k = 0 then x else if k = 1 then y
          else if k = 2 then (2 * x + y) / 3 else (x + 2 * y) / 3
      let g (x y : Nat) : Nat := if k = 0 then x else if k = 1 then y else if k = 2 then (x + y) / 2 else 0
      (bits v 15 0 > bits v 31 16 →
        Answers (.dxt1 v n srgb) s (.texel (rgbTexel srgb (f (e5 (bits v 15 11)) (e5 (bits v 31 27)))
          (f (e6 (bits v 10 5)) (e6 (bits v 26 21))) (f (e5 (bits v 4 0)) (e5 (bits v 20 16))) (.unorm 255 255)))) ∧
      (bits v 15 0 ≤ bits v 31 16 →
        Answers (.dxt1 v n srgb) s (.texel (rgbTexel srgb (g (e5 (bits v 15 11)) (e5 (bits v 31 27)))
          (g (e6 (bits v 10 5)) (e6 (bits v 26 21))) (g (e5 (bits v 4 0)) (e5 (bits v 20 16)))
          (.unorm (if k = 3 then 0 else 255) 255)))) ∧
      Answers (.dxt1Rgb v n srgb) s (.texel (rgbTexel srgb (f (e5 (bits v 15 11)) (e5 (bits v 31 27)))
        (f (e6 (bits v 10 5)) (e6 (bits v 26 21))) (f (e5 (bits v 4 0)) (e5 (bits v 20 16))) (.unorm 255 255)))) ∧
    (∀ v : BitVec 128,
      let k := bits v (16 + 3 * p + 2) (16 + 3 * p)
      let a0 := bits v 7 0
      let a1 := bits v 15 8
      ∃ x : Texel, Answers (.dxt1Rgb (v.extractLsb' 64 64) n false) s (.texel x) ∧
        Answers (.dxt3 v n) s (.texel { x with a := .unorm (17 * bits v (4 * p + 3) (4 * p)) 255 }) ∧
        Answers (.dxt5 v n) s (.texel { x with a := .unorm (if k = 0 then a0 else if k = 1 then a1
          else if a0 > a1 then ((8 - k) * a0 + (k - 1) * a1) / 7
          else if k = 6 then 0 else if k = 7 then 255 else ((6 - k) * a0 + (k - 1) * a1) / 5) 255 }))

/-- BC4_UNORM: codes 0 and 1 are the references; if red_0 > red_1 code k is ((8-k)*red_0 + (k-1)*red_1)/7, else
codes 2 to 5 are ((6-k)*red_0 + (k-1)*red_1)/5, code 6 is 0 and 7 is 255, over 255. BC4_SNORM: the same on signed
values with truncating division, -127 and 127, at least -127, over 127 (U24). BC5 takes red from bits 63:0 and green
from 127:64. Other channels 0, alpha 1.0 (D29). Truncating division with no rounding term is decision D31 (R921,
U22). (R921, R970, R972, spec/92_eei_decisions.md, spec/93_implementation_defined.md) -/
def Obligations.Bc4AndBc5Decode : Prop :=
  ∀ (s : State) (n : Pos),
    let p := 4 * n.row.toNat + n.col.toNat
    (∀ v : BitVec 64,
      let k := bits v (16 + 3 * p + 2) (16 + 3 * p)
      let a0 := bits v 7 0
      let a1 := bits v 15 8
      let b0 := (v.extractLsb' 0 8).toInt
      let b1 := (v.extractLsb' 8 8).toInt
      Answers (.bc4 v n false) s (.texel ⟨.unorm (if k = 0 then a0 else if k = 1 then a1
          else if a0 > a1 then ((8 - k) * a0 + (k - 1) * a1) / 7
          else if k = 6 then 0 else if k = 7 then 255 else ((6 - k) * a0 + (k - 1) * a1) / 5) 255,
        .unorm 0 1, .unorm 0 1, .unorm 1 1⟩) ∧
      Answers (.bc4 v n true) s (.texel ⟨.snorm (max (-127) (if k = 0 then b0 else if k = 1 then b1
          else if b0 > b1 then Int.tdiv ((8 - (k : Int)) * b0 + ((k : Int) - 1) * b1) 7
          else if k = 6 then -127 else if k = 7 then 127
          else Int.tdiv ((6 - (k : Int)) * b0 + ((k : Int) - 1) * b1) 5)) 127,
        .unorm 0 1, .unorm 0 1, .unorm 1 1⟩)) ∧
    (∀ (v : BitVec 128) (sn : Bool), ∃ x y : Texel, Answers (.bc4 (v.extractLsb' 0 64) n sn) s (.texel x) ∧
      Answers (.bc4 (v.extractLsb' 64 64) n sn) s (.texel y) ∧
      Answers (.bc5 v n sn) s (.texel ⟨x.r, y.r, .unorm 0 1, .unorm 1 1⟩))

/-- Mode bits V[1:0] = 00 or 01 select modes 0 and 1, V[4:0] the other twelve and the four undefined values: the
operation answers exactly what that row answers. Each undefined row answers zero in red, green and blue, whatever
the block; the alpha 1.0 beside it is the default of R1000 and R822, decision D29 of the spec. (R1001, R1000, R822,
spec/92_eei_decisions.md) -/
def Obligations.Bc6hSelectsItsMode : Prop :=
  ∀ (s : State) (v : BitVec 128) (n : Pos) (sg : Bool),
    (v.toNat % 4 = 0 → exec (.bc6h v n sg) s = exec (.bc6hMode0 v n sg) s) ∧
    (v.toNat % 4 = 1 → exec (.bc6h v n sg) s = exec (.bc6hMode1 v n sg) s) ∧
    (v.toNat % 32 = 0b00010 → exec (.bc6h v n sg) s = exec (.bc6hMode2 v n sg) s) ∧
    (v.toNat % 32 = 0b00110 → exec (.bc6h v n sg) s = exec (.bc6hMode3 v n sg) s) ∧
    (v.toNat % 32 = 0b01010 → exec (.bc6h v n sg) s = exec (.bc6hMode4 v n sg) s) ∧
    (v.toNat % 32 = 0b01110 → exec (.bc6h v n sg) s = exec (.bc6hMode5 v n sg) s) ∧
    (v.toNat % 32 = 0b10010 → exec (.bc6h v n sg) s = exec (.bc6hMode6 v n sg) s) ∧
    (v.toNat % 32 = 0b10110 → exec (.bc6h v n sg) s = exec (.bc6hMode7 v n sg) s) ∧
    (v.toNat % 32 = 0b11010 → exec (.bc6h v n sg) s = exec (.bc6hMode8 v n sg) s) ∧
    (v.toNat % 32 = 0b11110 → exec (.bc6h v n sg) s = exec (.bc6hMode9 v n sg) s) ∧
    (v.toNat % 32 = 0b00011 → exec (.bc6h v n sg) s = exec (.bc6hMode10 v n sg) s) ∧
    (v.toNat % 32 = 0b00111 → exec (.bc6h v n sg) s = exec (.bc6hMode11 v n sg) s) ∧
    (v.toNat % 32 = 0b01011 → exec (.bc6h v n sg) s = exec (.bc6hMode12 v n sg) s) ∧
    (v.toNat % 32 = 0b01111 → exec (.bc6h v n sg) s = exec (.bc6hMode13 v n sg) s) ∧
    (v.toNat % 32 = 0b10011 → exec (.bc6h v n sg) s = exec (.bc6hUndef10011 v n sg) s) ∧
    (v.toNat % 32 = 0b10111 → exec (.bc6h v n sg) s = exec (.bc6hUndef10111 v n sg) s) ∧
    (v.toNat % 32 = 0b11011 → exec (.bc6h v n sg) s = exec (.bc6hUndef11011 v n sg) s) ∧
    (v.toNat % 32 = 0b11111 → exec (.bc6h v n sg) s = exec (.bc6hUndef11111 v n sg) s) ∧
    Answers (.bc6hUndef10011 v n sg) s (.texel ⟨.half 0, .half 0, .half 0, .unorm 1 1⟩) ∧
    Answers (.bc6hUndef10111 v n sg) s (.texel ⟨.half 0, .half 0, .half 0, .unorm 1 1⟩) ∧
    Answers (.bc6hUndef11011 v n sg) s (.texel ⟨.half 0, .half 0, .half 0, .unorm 1 1⟩) ∧
    Answers (.bc6hUndef11111 v n sg) s (.texel ⟨.half 0, .half 0, .half 0, .unorm 1 1⟩)

/-- For every block and texel, BC6H.DECODE and each of the 14 mode rows answer three half-precision values and alpha
1.0 (D29) and change nothing else. In BC6H_UF16 each value is at most 0x7BFF, the largest finite half; in BC6H_SF16
its low 15 bits are at most 0x7BFF, or it is 0xFC00 (-INF), which only mode 13 can answer. And each of the 14 rows
in full, in both formats: its endpoint fields are those of its table (R1003 to R1016), each from its bits of the
block, most significant first; a delta is sign-extended and added to w modulo the precision (no deltas in modes 9
and 10), a signed endpoint is sign-extended, each is unquantised, the line that the partition V[81:77] gives the
texel (the one line in modes 10 to 13) and its index, of 3 bits from bit 82 or of 4 bits from bit 65 with one bit
less at the fix-up texels, give pal = (e'*(64-w) + f'*w + 32) >> 6, and the half is pal*31 >> 6, or of SF16 the sign
with |pal|*31 >> 5. That a magnitude of 2^(p-1), that of the most negative endpoint of SF16, is unquantised as the
maximum (the clause 2^(p-1) - 1 <= a) R1021 derives: it is the spec's own inference. Rounding is D35. The wrap of
base plus delta is D34 (U25) and the layout of a half is U26, both from general knowledge (log entry 28).
(spec/47_bc6h_bc7.md, R1001, R1003, R1016, R1018, R1019, R1020, R1021, R1022, R1023, R1025,
spec/92_eei_decisions.md) -/
def Obligations.Bc6hRowsAnswerFiniteHalves : Prop :=
  ∀ (s : State) (v : BitVec 128) (n : Pos) (sg : Bool),
    let P (inf : Bool) (h : BitVec 16) : Prop :=
      if sg then h.toNat % 2 ^ 15 ≤ 0x7BFF ∨ (inf = true ∧ h = 0xFC00) else h.toNat ≤ 0x7BFF
    (∃ r g b, P false r ∧ P false g ∧ P false b ∧
      Answers (.bc6hMode0 v n sg) s (.texel ⟨.half r, .half g, .half b, .unorm 1 1⟩)) ∧
    (∃ r g b, P false r ∧ P false g ∧ P false b ∧
      Answers (.bc6hMode1 v n sg) s (.texel ⟨.half r, .half g, .half b, .unorm 1 1⟩)) ∧
    (∃ r g b, P false r ∧ P false g ∧ P false b ∧
      Answers (.bc6hMode2 v n sg) s (.texel ⟨.half r, .half g, .half b, .unorm 1 1⟩)) ∧
    (∃ r g b, P false r ∧ P false g ∧ P false b ∧
      Answers (.bc6hMode3 v n sg) s (.texel ⟨.half r, .half g, .half b, .unorm 1 1⟩)) ∧
    (∃ r g b, P false r ∧ P false g ∧ P false b ∧
      Answers (.bc6hMode4 v n sg) s (.texel ⟨.half r, .half g, .half b, .unorm 1 1⟩)) ∧
    (∃ r g b, P false r ∧ P false g ∧ P false b ∧
      Answers (.bc6hMode5 v n sg) s (.texel ⟨.half r, .half g, .half b, .unorm 1 1⟩)) ∧
    (∃ r g b, P false r ∧ P false g ∧ P false b ∧
      Answers (.bc6hMode6 v n sg) s (.texel ⟨.half r, .half g, .half b, .unorm 1 1⟩)) ∧
    (∃ r g b, P false r ∧ P false g ∧ P false b ∧
      Answers (.bc6hMode7 v n sg) s (.texel ⟨.half r, .half g, .half b, .unorm 1 1⟩)) ∧
    (∃ r g b, P false r ∧ P false g ∧ P false b ∧
      Answers (.bc6hMode8 v n sg) s (.texel ⟨.half r, .half g, .half b, .unorm 1 1⟩)) ∧
    (∃ r g b, P false r ∧ P false g ∧ P false b ∧
      Answers (.bc6hMode9 v n sg) s (.texel ⟨.half r, .half g, .half b, .unorm 1 1⟩)) ∧
    (∃ r g b, P false r ∧ P false g ∧ P false b ∧
      Answers (.bc6hMode10 v n sg) s (.texel ⟨.half r, .half g, .half b, .unorm 1 1⟩)) ∧
    (∃ r g b, P false r ∧ P false g ∧ P false b ∧
      Answers (.bc6hMode11 v n sg) s (.texel ⟨.half r, .half g, .half b, .unorm 1 1⟩)) ∧
    (∃ r g b, P false r ∧ P false g ∧ P false b ∧
      Answers (.bc6hMode12 v n sg) s (.texel ⟨.half r, .half g, .half b, .unorm 1 1⟩)) ∧
    (∃ r g b, P true r ∧ P true g ∧ P true b ∧
      Answers (.bc6hMode13 v n sg) s (.texel ⟨.half r, .half g, .half b, .unorm 1 1⟩)) ∧
    (∃ r g b, P true r ∧ P true g ∧ P true b ∧
      Answers (.bc6h v n sg) s (.texel ⟨.half r, .half g, .half b, .unorm 1 1⟩)) ∧
    (let t := 4 * n.row.toNat + n.col.toNat
     let F (l : List (Nat × Nat)) : Nat := l.foldl (fun a x => a * 2 ^ (x.1 + 1 - x.2) + bits v x.1 x.2) 0
     let sx (k x : Nat) : Int := if 2 ^ (k - 1) ≤ x then (x : Int) - 2 ^ k else x
     let ext (k x : Nat) : Int := if sg then sx k x else x
     let R (i : Instr) (two : Bool) (p : Nat) (ds : List Nat) (fs : List (List (Nat × Nat))) : Prop :=
       let q := if two then partitionsTwo.getD (bits v 81 77) partitionOne else partitionOne
       let at_ := 82 + 3 * t - ((if 0 < t then 1 else 0) + if q.fix1 < t then 1 else 0)
       let w : Nat := if two then [0, 9, 18, 27, 37, 46, 55, 64].getD
            (if t = 0 ∨ t = q.fix1 then bits v (at_ + 1) at_ else bits v (at_ + 2) at_) 0
         else [0, 4, 9, 13, 17, 21, 26, 30, 34, 38, 43, 47, 51, 55, 60, 64].getD
            (if t = 0 then bits v 67 65 else bits v (4 * t + 67) (4 * t + 64)) 0
       let e (c j : Nat) : Int :=
         if j = 0 ∨ ds = [] then ext p (F (fs.getD (3 * j + c) []))
         else ext p ((ext p (F (fs.getD c [])) + sx (ds.getD c 0) (F (fs.getD (3 * j + c) []))) % 2 ^ p).toNat
       let m (a : Nat) : Nat := if p = 16 then a else if a = 0 then 0 else if 2 ^ (p - 1) - 1 ≤ a then 32767
         else (a * 32768 + 16384) / 2 ^ (p - 1)
       let unq (x : Int) : Int := if sg then (if x < 0 then -(m x.natAbs : Int) else m x.natAbs)
         else if p = 16 then x else if x = 0 then 0 else if x = 2 ^ p - 1 then 65535 else (x * 65536 + 32768) / 2 ^ p
       let ch (c : Nat) : Chan :=
         let a := if q.line t = 0 then 0 else 2
         let pal : Int := (unq (e c a) * (64 - w : Nat) + unq (e c (a + 1)) * w + 32) / 64
         .half (BitVec.ofNat 16 (if sg then (if pal < 0 then 32768 else 0) + pal.natAbs * 31 / 32
           else pal.toNat * 31 / 64))
       Answers i s (.texel ⟨ch 0, ch 1, ch 2, .unorm 1 1⟩)
    R (.bc6hMode0 v n sg) true 10 [5, 5, 5] [
      [(14, 5)], [(24, 15)], [(34, 25)], [(39, 35)], [(49, 45)], [(59, 55)], [(69, 65)], [(2, 2), (44, 41)],
      [(3, 3), (64, 61)], [(75, 71)], [(40, 40), (54, 51)], [(4, 4), (76, 76), (70, 70), (60, 60), (50, 50)]] ∧
    R (.bc6hMode1 v n sg) true 7 [6, 6, 6] [
      [(11, 5)], [(21, 15)], [(31, 25)], [(40, 35)], [(50, 45)], [(60, 55)], [(70, 65)],
      [(2, 2), (24, 24), (44, 41)], [(22, 22), (14, 14), (64, 61)], [(76, 71)], [(4, 4), (3, 3), (54, 51)],
      [(33, 33), (34, 34), (32, 32), (23, 23), (13, 13), (12, 12)]] ∧
    R (.bc6hMode2 v n sg) true 11 [5, 4, 4] [
      [(40, 40), (14, 5)], [(49, 49), (24, 15)], [(59, 59), (34, 25)], [(39, 35)], [(48, 45)], [(58, 55)],
      [(69, 65)], [(44, 41)], [(64, 61)], [(75, 71)], [(54, 51)], [(76, 76), (70, 70), (60, 60), (50, 50)]] ∧
    R (.bc6hMode3 v n sg) true 11 [4, 5, 4] [
      [(39, 39), (14, 5)], [(50, 50), (24, 15)], [(59, 59), (34, 25)], [(38, 35)], [(49, 45)], [(58, 55)],
      [(68, 65)], [(75, 75), (44, 41)], [(64, 61)], [(74, 71)], [(40, 40), (54, 51)],
      [(76, 76), (70, 70), (60, 60), (69, 69)]] ∧
    R (.bc6hMode4 v n sg) true 11 [4, 4, 5] [
      [(39, 39), (14, 5)], [(49, 49), (24, 15)], [(60, 60), (34, 25)], [(38, 35)], [(48, 45)], [(59, 55)],
      [(68, 65)], [(44, 41)], [(40, 40), (64, 61)], [(74, 71)], [(54, 51)],
      [(75, 75), (76, 76), (70, 70), (69, 69), (50, 50)]] ∧
    R (.bc6hMode5 v n sg) true 9 [5, 5, 5] [
      [(13, 5)], [(23, 15)], [(33, 25)], [(39, 35)], [(49, 45)], [(59, 55)], [(69, 65)],
      [(24, 24), (44, 41)], [(14, 14), (64, 61)], [(75, 71)], [(40, 40), (54, 51)],
      [(34, 34), (76, 76), (70, 70), (60, 60), (50, 50)]] ∧
    R (.bc6hMode6 v n sg) true 8 [6, 5, 5] [
      [(12, 5)], [(22, 15)], [(32, 25)], [(40, 35)], [(49, 45)], [(59, 55)], [(70, 65)],
      [(24, 24), (44, 41)], [(14, 14), (64, 61)], [(76, 71)], [(13, 13), (54, 51)],
      [(34, 34), (33, 33), (23, 23), (60, 60), (50, 50)]] ∧
    R (.bc6hMode7 v n sg) true 8 [5, 6, 5] [
      [(12, 5)], [(22, 15)], [(32, 25)], [(39, 35)], [(50, 45)], [(59, 55)], [(69, 65)],
      [(23, 23), (24, 24), (44, 41)], [(14, 14), (64, 61)], [(75, 71)], [(33, 33), (40, 40), (54, 51)],
      [(34, 34), (76, 76), (70, 70), (60, 60), (13, 13)]] ∧
    R (.bc6hMode8 v n sg) true 8 [5, 5, 6] [
      [(12, 5)], [(22, 15)], [(32, 25)], [(39, 35)], [(49, 45)], [(60, 55)], [(69, 65)],
      [(24, 24), (44, 41)], [(23, 23), (14, 14), (64, 61)], [(75, 71)], [(40, 40), (54, 51)],
      [(33, 33), (34, 34), (76, 76), (70, 70), (13, 13), (50, 50)]] ∧
    R (.bc6hMode9 v n sg) true 6 [] [
      [(10, 5)], [(20, 15)], [(30, 25)], [(40, 35)], [(50, 45)], [(60, 55)], [(70, 65)],
      [(21, 21), (24, 24), (44, 41)], [(22, 22), (14, 14), (64, 61)], [(76, 71)],
      [(31, 31), (11, 11), (54, 51)], [(33, 33), (34, 34), (32, 32), (23, 23), (13, 13), (12, 12)]] ∧
    R (.bc6hMode10 v n sg) false 10 [] [
      [(14, 5)], [(24, 15)], [(34, 25)], [(44, 35)], [(54, 45)], [(64, 55)]] ∧
    R (.bc6hMode11 v n sg) false 11 [9, 9, 9] [
      [(44, 44), (14, 5)], [(54, 54), (24, 15)], [(64, 64), (34, 25)], [(43, 35)], [(53, 45)], [(63, 55)]] ∧
    R (.bc6hMode12 v n sg) false 12 [8, 8, 8] [
      [(43, 43), (44, 44), (14, 5)], [(53, 53), (54, 54), (24, 15)], [(63, 63), (64, 64), (34, 25)],
      [(42, 35)], [(52, 45)], [(62, 55)]] ∧
    R (.bc6hMode13 v n sg) false 16 [4, 4, 4] [
      [(39, 39), (40, 40), (41, 41), (42, 42), (43, 43), (44, 44), (14, 5)],
      [(49, 49), (50, 50), (51, 51), (52, 52), (53, 53), (54, 54), (24, 15)],
      [(59, 59), (60, 60), (61, 61), (62, 62), (63, 63), (64, 64), (34, 25)], [(38, 35)], [(48, 45)],
      [(58, 55)]])

/-- If bit k is the lowest 1 bit of V[7:0], BC7.DECODE answers exactly what the row of mode k answers (mode 0 has
bit 0 = 1, conflict C41); with V[7:0] = 0 what the undefined row answers, which is zero in every channel whatever
the block (alpha 0 is decision D36 of the spec, U27). (R1042, R1060, spec/90_conflicts.md) -/
def Obligations.Bc7SelectsItsMode : Prop :=
  ∀ (s : State) (v : BitVec 128) (n : Pos) (srgb : Bool),
    (v.getLsbD 0 = true →
      exec (.bc7 v n srgb) s = exec (.bc7Mode0 v n srgb) s) ∧
    (v.getLsbD 0 = false → v.getLsbD 1 = true →
      exec (.bc7 v n srgb) s = exec (.bc7Mode1 v n srgb) s) ∧
    (v.getLsbD 0 = false → v.getLsbD 1 = false → v.getLsbD 2 = true →
      exec (.bc7 v n srgb) s = exec (.bc7Mode2 v n srgb) s) ∧
    (v.getLsbD 0 = false → v.getLsbD 1 = false → v.getLsbD 2 = false → v.getLsbD 3 = true →
      exec (.bc7 v n srgb) s = exec (.bc7Mode3 v n srgb) s) ∧
    (v.getLsbD 0 = false → v.getLsbD 1 = false → v.getLsbD 2 = false → v.getLsbD 3 = false → v.getLsbD 4 = true →
      exec (.bc7 v n srgb) s = exec (.bc7Mode4 v n srgb) s) ∧
    (v.getLsbD 0 = false → v.getLsbD 1 = false → v.getLsbD 2 = false → v.getLsbD 3 = false → v.getLsbD 4 = false →
      v.getLsbD 5 = true →
      exec (.bc7 v n srgb) s = exec (.bc7Mode5 v n srgb) s) ∧
    (v.getLsbD 0 = false → v.getLsbD 1 = false → v.getLsbD 2 = false → v.getLsbD 3 = false → v.getLsbD 4 = false →
      v.getLsbD 5 = false → v.getLsbD 6 = true →
      exec (.bc7 v n srgb) s = exec (.bc7Mode6 v n srgb) s) ∧
    (v.getLsbD 0 = false → v.getLsbD 1 = false → v.getLsbD 2 = false → v.getLsbD 3 = false → v.getLsbD 4 = false →
      v.getLsbD 5 = false → v.getLsbD 6 = false → v.getLsbD 7 = true →
      exec (.bc7 v n srgb) s = exec (.bc7Mode7 v n srgb) s) ∧
    (v.toNat % 256 = 0 → exec (.bc7 v n srgb) s = exec (.bc7Undef v n srgb) s) ∧
    Answers (.bc7Undef v n srgb) s (.texel ⟨.unorm 0 255, .unorm 0 255, .unorm 0 255, .unorm 0 255⟩)

/-- For every block and texel BC7.DECODE and each of the eight mode rows answer channels n/255 with n below 256 and
change nothing else; modes 0 to 3 answer alpha 255; sRGB passes only the three colours through SrgbToLinear. And
each of the eight rows in full, from the fields of its table (R1043 to R1050): each channel is (E0*(64-w) + E1*w +
32) >> 6 of the two endpoints, on the line that the partition gives the texel (V[4:1] of the three-line table in
mode 0, V[8:3] of it in mode 2, of the two-line table V[7:2] in mode 1, V[9:4] in mode 3, V[13:8] in mode 7, one
line in modes 4, 5 and 6); an endpoint is its bits, with the P-bit of its endpoint (mode 1: of its line) below where
the mode has one, replicated to 8 bits; w is the weight of the texel's 2-, 3- or 4-bit index, packed with one bit
less at the fix-up texels. In modes 4 and 5 the alpha has an index of its own, exchanged with the colours' by the
index selector V[7] of mode 4, and the rotation V[6:5] or V[7:6] exchanges alpha with a colour (U28). That sRGB
leaves alpha as it is (R1058), the rotation and index selector (R1059, U28) and alpha 0 of the undefined block (D36,
U27) are from general knowledge (log entry 28), SrgbToLinear is log entry 4. (spec/47_bc6h_bc7.md, R1042, R1043,
R1050, R1052, R1053, R1054, R1056, R1057, R1058, R1059, R1060) -/
def Obligations.Bc7RowsAnswerEightBitTexels : Prop :=
  ∀ (s : State) (v : BitVec 128) (n : Pos),
    (∃ r g b : Nat, r < 256 ∧ g < 256 ∧ b < 256 ∧ ∀ srgb, Answers (.bc7Mode0 v n srgb) s
      (.texel (rgbTexel srgb r g b (.unorm 255 255)))) ∧
    (∃ r g b : Nat, r < 256 ∧ g < 256 ∧ b < 256 ∧ ∀ srgb, Answers (.bc7Mode1 v n srgb) s
      (.texel (rgbTexel srgb r g b (.unorm 255 255)))) ∧
    (∃ r g b : Nat, r < 256 ∧ g < 256 ∧ b < 256 ∧ ∀ srgb, Answers (.bc7Mode2 v n srgb) s
      (.texel (rgbTexel srgb r g b (.unorm 255 255)))) ∧
    (∃ r g b : Nat, r < 256 ∧ g < 256 ∧ b < 256 ∧ ∀ srgb, Answers (.bc7Mode3 v n srgb) s
      (.texel (rgbTexel srgb r g b (.unorm 255 255)))) ∧
    (∃ r g b a : Nat, r < 256 ∧ g < 256 ∧ b < 256 ∧ a < 256 ∧ ∀ srgb, Answers (.bc7Mode4 v n srgb) s
      (.texel (rgbTexel srgb r g b (.unorm a 255)))) ∧
    (∃ r g b a : Nat, r < 256 ∧ g < 256 ∧ b < 256 ∧ a < 256 ∧ ∀ srgb, Answers (.bc7Mode5 v n srgb) s
      (.texel (rgbTexel srgb r g b (.unorm a 255)))) ∧
    (∃ r g b a : Nat, r < 256 ∧ g < 256 ∧ b < 256 ∧ a < 256 ∧ ∀ srgb, Answers (.bc7Mode6 v n srgb) s
      (.texel (rgbTexel srgb r g b (.unorm a 255)))) ∧
    (∃ r g b a : Nat, r < 256 ∧ g < 256 ∧ b < 256 ∧ a < 256 ∧ ∀ srgb, Answers (.bc7Mode7 v n srgb) s
      (.texel (rgbTexel srgb r g b (.unorm a 255)))) ∧
    (bits v 7 0 ≠ 0 → ∃ r g b a : Nat, r < 256 ∧ g < 256 ∧ b < 256 ∧ a < 256 ∧ ∀ srgb, Answers (.bc7 v n srgb) s
      (.texel (rgbTexel srgb r g b (.unorm a 255)))) ∧
    (bits v 7 0 = 0 → ∀ srgb, Answers (.bc7 v n srgb) s
      (.texel ⟨.unorm 0 255, .unorm 0 255, .unorm 0 255, .unorm 0 255⟩)) ∧
    (∀ srgb : Bool,
     let t := 4 * n.row.toNat + n.col.toNat
     let weight (lo k : Nat) (fix : List Nat) : Nat :=
       let at_ := lo + k * t - (fix.filter (fun x => decide (x < t))).length
       let i := if fix.contains t then bits v (at_ + k - 2) at_ else bits v (at_ + k - 1) at_
       (if k = 2 then [0, 21, 43, 64] else if k = 3 then [0, 9, 18, 27, 37, 46, 55, 64]
         else [0, 4, 9, 13, 17, 21, 26, 30, 34, 38, 43, 47, 51, 55, 60, 64]).getD i 0
     let rep (k e : Nat) : Nat := e * 2 ^ (8 - k) + e / 2 ^ (2 * k - 8)
     let mix (lo k : Nat) (pbit : Option (Nat → Nat)) (l w : Nat) : Nat :=
       let e (j : Nat) : Nat := match pbit with
         | none => rep k (bits v (lo + k * j + k - 1) (lo + k * j))
         | some f => rep (k + 1) (2 * bits v (lo + k * j + k - 1) (lo + k * j) + bits v (f j) (f j))
       (e (2 * l) * (64 - w) + e (2 * l + 1) * w + 32) / 64
     let tex (i : Instr) (r g b a : Nat) : Prop := Answers i s (.texel (rgbTexel srgb r g b (.unorm a 255)))
     let turned (k : Nat) (i : Instr) (r g b a : Nat) : Prop :=
       if k = 1 then tex i a g b r else if k = 2 then tex i r a b g else if k =
         3 then tex i r g a b else tex i r g b a
     (let p := partitionsThree.getD (bits v 4 1) partitionOne
      let c (lo : Nat) : Nat := mix lo 4 (some (fun j => 77 + j)) (p.line t) (weight 83 3 [0, p.fix1, p.fix2])
      tex (.bc7Mode0 v n srgb) (c 5) (c 29) (c 53) 255) ∧
     (let p := partitionsTwo.getD (bits v 7 2) partitionOne
      let c (lo : Nat) : Nat := mix lo 6 (some (fun j => 80 + j / 2)) (p.line t) (weight 82 3 [0, p.fix1])
      tex (.bc7Mode1 v n srgb) (c 8) (c 32) (c 56) 255) ∧
     (let p := partitionsThree.getD (bits v 8 3) partitionOne
      let c (lo : Nat) : Nat := mix lo 5 none (p.line t) (weight 99 2 [0, p.fix1, p.fix2])
      tex (.bc7Mode2 v n srgb) (c 9) (c 39) (c 69) 255) ∧
     (let p := partitionsTwo.getD (bits v 9 4) partitionOne
      let c (lo : Nat) : Nat := mix lo 7 (some (fun j => 94 + j)) (p.line t) (weight 98 2 [0, p.fix1])
      tex (.bc7Mode3 v n srgb) (c 10) (c 38) (c 66) 255) ∧
     (let two := weight 50 2 [0]
      let three := weight 81 3 [0]
      let w := if bits v 7 7 = 0 then two else three
      let x := if bits v 7 7 = 0 then three else two
      turned (bits v 6 5) (.bc7Mode4 v n srgb) (mix 8 5 none 0 w) (mix 18 5 none 0 w) (mix 28 5 none 0 w)
        (mix 38 6 none 0 x)) ∧
     (let w := weight 66 2 [0]
      turned (bits v 7 6) (.bc7Mode5 v n srgb) (mix 8 7 none 0 w) (mix 22 7 none 0 w) (mix 36 7 none 0 w)
        (mix 50 8 none 0 (weight 97 2 [0]))) ∧
     (let c (lo : Nat) : Nat := mix lo 7 (some (fun j => 63 + j)) 0 (weight 65 4 [0])
      tex (.bc7Mode6 v n srgb) (c 7) (c 21) (c 35) (c 49)) ∧
     (let p := partitionsTwo.getD (bits v 13 8) partitionOne
      let c (lo : Nat) : Nat := mix lo 5 (some (fun j => 94 + j)) (p.line t) (weight 98 2 [0, p.fix1])
      tex (.bc7Mode7 v n srgb) (c 14) (c 34) (c 54) (c 74)))

/-- A format of the table (2D, or 3D where supported) answers a texel for every block and position, changing nothing
else (outside the footprint the texel is a free value, log entry 33); other values are refused (U34), 3D without
support too (U32). 2D blocks: a void-extent LDR block with all extents 1s answers its four UNORM16 values as FP16 in
an LDR float format; V[8:0] = 0x1FC with an HDR flag in an LDR format, and V[3:0] = 0, are errors. Ordinary blocks
with index mode 0x042 (a 4x4 grid of 2-bit indices, one plane), one partition and CEM 0, 4, 8 or 12, in full,
whatever the footprint: colour values are the bytes from bit 17 up, the index of a grid point two bits counted down
from bit 127 (weight 0, 21, 43 or 64), the effective index is the bilinear infill of four grid points, each
component of the texel is the interpolation of its two endpoint values expanded to 16 bits (blue contraction of CEM
8 and 12 when the odd values sum lower), as FP16, or in an sRGB format its top 8 bits. Of the other ordinary blocks
only that some texel is answered. The header parse answers the fields and, for ASTC block sizes, block k of LOD 0 at
16 + 16k. That index mode 0x042 has 2-bit indices of range 0..3 is the range table of R1098, lost in the source and
given by the spec from general knowledge (U29, log entry 28, PRESUMED); that a grid point beyond the 16 stored ones
counts as 0 (R1135) and the FP16 pattern of a value (R1137) these rules derive, as the spec's own inferences. The
error texel is decision D43 (R1147), an HDR void-extent colour unchanged D45 (R1109), the operation mode D37
(R1084), alpha in an sRGB format D42. (R1083, R1084, R1107, R1108, R1109, R1121, R1135, R1137, R1147, R1150, R1152,
spec/92_eei_decisions.md) -/
def Obligations.AstcAnswersEveryListedFormat : Prop :=
  ∀ (s : State) (v : BitVec 128) (fmt : BitVec 9) (x y z : BitVec 4),
    (astcFormat fmt = none → exec (.astc v fmt x y z) s = .refused .notAFormat) ∧
    (∀ f, astcFormat fmt = some f →
      (f.is3D = true → s.par.astc3D = false → exec (.astc v fmt x y z) s = .refused .astc3DUnsupported) ∧
      let inside := x.toNat < f.bs ∧ y.toNat < f.bt ∧ z.toNat < f.br
      (f.is3D = false ∨ s.par.astc3D = true → inside → ∃ t : Texel, Answers (.astc v fmt x y z) s (.texel t)) ∧
      (f.is3D = false ∨ s.par.astc3D = true → ¬ inside → ∃ t : Texel, exec (.astc v fmt x y z) s =
        .next { s with freeCount := s.freeCount + 8, out := .texel t }) ∧
      (f.is3D = false → inside → bits v 8 0 = 0x1FC → bits v 63 10 = 2 ^ 54 - 1 → f.srgb = false → bit v 9 = false →
        Answers (.astc v fmt x y z) s (.texel ⟨.half (fp16OfUnorm16 (bits v 79 64)),
          .half (fp16OfUnorm16 (bits v 95 80)),
          .half (fp16OfUnorm16 (bits v 111 96)), .half (fp16OfUnorm16 (bits v 127 112))⟩)) ∧
      (f.is3D = false → inside → bits v 8 0 = 0x1FC → bits v 63 10 = 2 ^ 54 - 1 → f.hdr = true → bit v 9 = true →
        Answers (.astc v fmt x y z) s (.texel ⟨.half (v.extractLsb' 64 16), .half (v.extractLsb' 80 16),
          .half (v.extractLsb' 96 16), .half (v.extractLsb' 112 16)⟩)) ∧
      (f.is3D = false → inside → (bits v 8 0 = 0x1FC ∧ bit v 9 = true ∧ f.hdr = false ∨ bits v 3 0 = 0) →
        Answers (.astc v fmt x y z) s (.texel (if f.srgb then rgbTexel true 255 0 255 (.unorm 255 255)
          else if f.hdr then ⟨.half 0xFFFF, .half 0xFFFF, .half 0xFFFF, .half 0xFFFF⟩
          else ⟨.half 0x3C00, .half 0, .half 0x3C00, .half 0x3C00⟩)))) ∧
    (∀ f, astcFormat fmt = some f → f.is3D = false → x.toNat < f.bs → y.toNat < f.bt → z = 0 → bits v 12 0 = 0x042 →
      let k (j : Nat) : Nat := bits v (8 * j + 24) (8 * j + 17)
      let dec (j : Nat) : Nat := if j < 16 then
        [0, 21, 43, 64].getD (bits v (127 - 2 * j) (127 - 2 * j) + 2 * bits v (126 - 2 * j) (126 - 2 * j)) 0 else 0
      let grid (b p : Nat) : Nat := ((1024 + b / 2) / (b - 1) * p * 3 + 32) / 64
      let gs := grid f.bs x.toNat
      let gt := grid f.bt y.toNat
      let fs := gs % 16
      let ft := gt % 16
      let j := gs / 16 + gt / 16 * 4
      let w := (fs * ft + 8) / 16
      let i := (dec j * (16 + w - fs - ft) + dec (j + 1) * (fs - w) + dec (j + 4) * (ft - w) + dec (j + 5) * w +
        8) / 16
      let ex (e : Nat) : Nat := if f.srgb then e * 256 + 128 else e * 257
      let mix (e0 e1 : Nat) : Nat := (ex e0 * (64 - i) + ex e1 * i + 32) / 64
      let out (r0 r1 g0 g1 b0 b1 a0 a1 : Nat) : Prop := Answers (.astc v fmt x y z) s (.texel (if f.srgb then
          rgbTexel true (mix r0 r1 / 256) (mix g0 g1 / 256) (mix b0 b1 / 256) (.unorm (mix a0 a1 / 256) 255)
        else ⟨.half (fp16OfUnorm16 (mix r0 r1)), .half (fp16OfUnorm16 (mix g0 g1)), .half (fp16OfUnorm16 (mix b0 b1)),
          .half (fp16OfUnorm16 (mix a0 a1))⟩))
      let rgb (a0 a1 : Nat) : Prop :=
        (k 0 + k 2 + k 4 ≤ k 1 + k 3 + k 5 → out (k 0) (k 1) (k 2) (k 3) (k 4) (k 5) a0 a1) ∧
        (k 1 + k 3 + k 5 < k 0 + k 2 + k 4 →
          out ((k 1 + k 5) / 2) ((k 0 + k 4) / 2) ((k 3 + k 5) / 2) ((k 2 + k 4) / 2) (k 5) (k 4) a1 a0)
      (bits v 16 13 = 0 → out (k 0) (k 1) (k 0) (k 1) (k 0) (k 1) 255 255) ∧
      (bits v 16 13 = 4 → out (k 0) (k 1) (k 0) (k 1) (k 0) (k 1) (k 2) (k 3)) ∧
      (bits v 16 13 = 8 → rgb 255 255) ∧ (bits v 16 13 = 12 → rgb (k 6) (k 7))) ∧
    (∀ (lod : BitVec 5) (k : BitVec 32), ∃ o : Option Nat,
      Answers (.astcHeader v lod k) s (.astcHeader
        { bw := bits v 39 32, bh := bits v 47 40, bd := bits v 50 48, numLods := bits v 55 51 +
          1, width := bits v 79 56,
          height := bits v 103 80, depth := bits v 127 104, offset := o }) ∧
      (astcDims (bits v 39 32) (bits v 47 40) (bits v 50 48) = true → lod = 0 → o = some (16 + 16 * k.toNat)))

/-- The offset is V*Pitch + U for a typed buffer of pitch at most 2048, U for a raw one, U*Pitch + V for a
structured one with V a multiple of 4 below the pitch; the address is Base plus it, and nothing else changes. An
offset of 2^38 or more is refused (R1200, U35), a structured V that is not a multiple of 4 too (R1205, U38); a
larger typed pitch, or a V past the structure, is answered some address (a free value, log entry 33). The structured
equation is derived by the spec (R1205). (R1203, R1204, R1205, R1200, spec/93_implementation_defined.md) -/
def Obligations.BufferAddresses : Prop :=
  ∀ (s : State) (base u64 : BitVec 64) (pitch v u : BitVec 32),
    (pitch.toNat ≤ 2048 → v.toNat * pitch.toNat + u.toNat < 2 ^ 38 →
      Answers (.bufTyped base pitch v u) s (.address (base.toNat + (v.toNat * pitch.toNat + u.toNat)))) ∧
    (pitch.toNat ≤ 2048 → 2 ^ 38 ≤ v.toNat * pitch.toNat + u.toNat →
      exec (.bufTyped base pitch v u) s = .refused .offsetTooLarge) ∧
    (2048 < pitch.toNat → ∃ x, exec (.bufTyped base pitch v u) s =
      .next { s with freeCount := s.freeCount + 8, out := .address x }) ∧
    (u64.toNat < 2 ^ 38 → Answers (.bufRaw base u64) s (.address (base.toNat + u64.toNat))) ∧
    (2 ^ 38 ≤ u64.toNat → exec (.bufRaw base u64) s = .refused .offsetTooLarge) ∧
    (v.toNat % 4 = 0 → v.toNat < pitch.toNat → u.toNat * pitch.toNat + v.toNat < 2 ^ 38 →
      Answers (.bufStructured base pitch u v) s (.address (base.toNat + (u.toNat * pitch.toNat + v.toNat)))) ∧
    (v.toNat % 4 = 0 → v.toNat < pitch.toNat → 2 ^ 38 ≤ u.toNat * pitch.toNat + v.toNat →
      exec (.bufStructured base pitch u v) s = .refused .offsetTooLarge) ∧
    (v.toNat % 4 = 0 → pitch.toNat ≤ v.toNat → ∃ x, exec (.bufStructured base pitch u v) s =
      .next { s with freeCount := s.freeCount + 8, out := .address x }) ∧
    (v.toNat % 4 ≠ 0 → exec (.bufStructured base pitch u v) s = .refused .structuredOffset)

/-- Let i be the alignment in pixels (64; 4096/Bpp for TILEYF, 65536/Bpp for TILEYS) and sum(L) the sum over k < L
of i*ceil(max(1, W >> k)/i). With the base aligned (or one MIP of 64 or 128 bits in another surface's tail) and a
LOD up to MIPCOUNT, in the tail of TILEYF one of its 12 rows, the answer is Base + (R*QPitch + sum(L) + U)*Bpp when
that offset is below 2^38; in the mip tail sum(S) and the entry of the mip-tail table stand for sum(L). A misaligned
base (U1) or an offset of 2^38 or more (R1200, U35) is refused; for another LOD the address is a free value (log
entry 33). The width max(1, W >> k) of a LOD and the sum of the aligned widths as its offset are formulas lost in
the source that R1211 derives, as the spec's own inferences; the aligned width i*ceil(W/i) is decision D46 (R1211).
(R1208, R1211, R1214, R1215, R1216, R1222, R402, R1200, spec/92_eei_decisions.md, spec/93_implementation_defined.md)
-/
def Obligations.OneDimensionalSurfaceAddress : Prop :=
  ∀ (s : State) (a : Surf1D),
    let bpp := match a.bpe with | .b8 => 1 | .b16 => 2 | .b32 => 4 | .b64 => 8 | .b128 => 16
    let i := match a.tr with | .none => 64 | .yf => 4096 / bpp | .ys => 65536 / bpp
    let g := match a.tr with | .none => 1 | .yf => 4096 | .ys => 65536
    let tail := a.tr ≠ .none ∧ a.tail.toNat ≤ a.lod.toNat
    let l := if tail then a.tail.toNat else a.lod.toNat
    let mt := if tail then tailOffset1D a.tr a.bpe (a.lod.toNat - a.tail.toNat) else 0
    let off := (a.r.toNat * a.qpitch.toNat +
      ((List.range l).map (fun k => i * ((max 1 (a.width.toNat / 2 ^ k) + i - 1) / i))).sum + mt + a.u.toNat) * bpp
    let ok := a.base.toNat % g = 0 ∨ (a.inTail = true ∧ 8 ≤ bpp)
    let stated := a.lod.toNat ≤ a.mips.toNat ∧ (a.tr = .yf → a.lod.toNat ≤ a.tail.toNat + 11)
    (ok → stated → off < 2 ^ 38 → Answers (.surf1D a) s (.address (a.base.toNat + off))) ∧
    (ok → stated → 2 ^ 38 ≤ off → exec (.surf1D a) s = .refused .offsetTooLarge) ∧
    (ok → ¬ stated → ∃ x, exec (.surf1D a) s =
      .next { s with freeCount := s.freeCount + 8, out := .address x }) ∧
    (¬ ok → exec (.surf1D a) s = .refused .surfaceMisaligned)

/-- With the base as aligned as R402 asks and operands in the stated ranges (stated2D: nonempty units, a pitch of
whole tiles, a LOD up to MIPCOUNT and in the tail's table, a sample of the surface), the operation answers Base +
off for the model's offset off below 2^38 and is refused above (U35); outside those ranges it answers some address
(a free value, log entry 33); a misaligned base is refused (U1). For a linear surface that is not multisampled, LOD
l below 2: off is v*Pitch + u with u = (U + X_Offset)*Bpp, v = R*QPitch + V + Y_Offset, plus for LOD 1 the height of
LOD 0 (H rounded up to j, in blocks of q). Rounding the height up to j is decision D46 (R1224), and adding X_Offset
and Y_Offset is D47 (R1220); that in a compressed format they are added unconverted, as elements and rows of
elements, is the model's choice (log entry 32). (R402, R1200, R1208, R1220, R1224, R1225, R1226, R1234, R1233,
spec/92_eei_decisions.md) -/
def Obligations.TwoDimensionalSurfaceCompletes : Prop :=
  ∀ (s : State) (a : Surf2D),
    (baseAligned2D a = true → stated2D a = true → surf2DOffset a < 2 ^ 38 →
      Answers (.surf2D a) s (.address (a.base.toNat + surf2DOffset a))) ∧
    (baseAligned2D a = true → stated2D a = false → ∃ x, exec (.surf2D a) s =
      .next { s with freeCount := s.freeCount + 8, out := .address x }) ∧
    (baseAligned2D a = true → stated2D a = true → 2 ^ 38 ≤ surf2DOffset a →
      exec (.surf2D a) s = .refused .offsetTooLarge) ∧
    (baseAligned2D a = false → exec (.surf2D a) s = .refused .surfaceMisaligned) ∧
    (let u := (a.u.toNat + a.xoff.toNat) * 2 ^ bpeLog a.bpe
     let h := a.j.toNat * ((max 1 a.height.toNat + a.j.toNat - 1) / a.j.toNat)
     let v := a.r.toNat * a.qpitch.toNat + (if a.lod = 0 then 0 else h / a.q.toNat) + a.v.toNat + a.yoff.toNat
     let off := v * a.pitch.toNat + u
     a.tile = .linear → a.tr = .none → a.samples = .s1 → a.interleaved = false →
     a.p ≠ 0 → a.q ≠ 0 → a.i ≠ 0 → a.j ≠ 0 → a.ss = 0 → a.lod.toNat ≤ a.mips.toNat →
     a.lod.toNat < 2 → h % a.q.toNat = 0 → off < 2 ^ 38 →
     Answers (.surf2D a) s (.address (a.base.toNat + off)))

/-- For a surface without tiled resources with operands in the stated ranges (stated2D) whose pitch is a whole
number of tiles, with u and v the byte column and row of R1226 (LOD, array slice and X/Y offsets included) that fit
the operands, an aligned base and an offset below 2^38: SURF.2D answers exactly the address that the tile operation
of the base, the pitch in tiles, u and v answers. (R1232, R1233, R1234, R420, R421, R422) -/
def Obligations.TiledSurfaceIsTheTileOperation : Prop :=
  ∀ (s : State) (a : Surf2D) (base : BitVec 64) (pitch u v : BitVec 32), a.base = base → a.tr = .none →
    stated2D a = true →
    bytesUV2D a = (u.toNat, v.toNat) → base.toNat % 4096 = 0 → surf2DOffset a < 2 ^ 38 →
    (a.tile = .tileX → a.pitch.toNat = pitch.toNat * 512 → ∃ x, Answers (.surf2D a) s (.address x) ∧
      Answers (.tileX base pitch u v) s (.address x)) ∧
    (a.tile = .tileY → a.pitch.toNat = pitch.toNat * 128 → ∃ x, Answers (.surf2D a) s (.address x) ∧
      Answers (.tileY base pitch u v) s (.address x)) ∧
    (a.tile = .tileW → a.pitch.toNat = pitch.toNat * 64 → ∃ x, Answers (.surf2D a) s (.address x) ∧
      Answers (.tileW base pitch u v) s (.address x))

/-- With u and v the byte column and row, operands in the stated ranges (stated2D), an aligned base and an offset
below 2^38: the address is Base + TileID * 64 KB (4 KB for TileYF) + o, TileID = (v >> Cv)*(Pitch >> Cu) + (u >>
Cu), where o is what the TileYS or TileYF operation of the element size answers for u mod 2^Cu and v mod 2^Cv.
(R1232, R1233, R1234, R427, R428, R429, R442, R443, R444) -/
def Obligations.TiledResourceSurfaceUsesTheSwizzle : Prop :=
  ∀ (s : State) (a : Surf2D) (u v : Nat), (u, v) = bytesUV2D a → a.samples = .s1 →
    baseAligned2D a = true → stated2D a = true → surf2DOffset a < 2 ^ 38 →
    (a.tr = .ys → a.bpe = .b8 → ∃ o : BitVec 16,
      Answers (.tileYs8 (BitVec.ofNat 16 (u % 256)) (BitVec.ofNat 16 (v % 256))) s (.offset o) ∧
      Answers (.surf2D a) s (.address (a.base.toNat +
        (((v / 256) * (a.pitch.toNat / 256) + u / 256) * 65536 + o.toNat)))) ∧
    (a.tr = .ys → a.bpe = .b16 → ∃ o : BitVec 16,
      Answers (.tileYs16 (BitVec.ofNat 16 (u % 512)) (BitVec.ofNat 16 (v % 128))) s (.offset o) ∧
      Answers (.surf2D a) s (.address (a.base.toNat +
        (((v / 128) * (a.pitch.toNat / 512) + u / 512) * 65536 + o.toNat)))) ∧
    (a.tr = .ys → a.bpe = .b32 → ∃ o : BitVec 16,
      Answers (.tileYs16 (BitVec.ofNat 16 (u % 512)) (BitVec.ofNat 16 (v % 128))) s (.offset o) ∧
      Answers (.surf2D a) s (.address (a.base.toNat +
        (((v / 128) * (a.pitch.toNat / 512) + u / 512) * 65536 + o.toNat)))) ∧
    (a.tr = .ys → a.bpe = .b64 → ∃ o : BitVec 16,
      Answers (.tileYs64 (BitVec.ofNat 16 (u % 1024)) (BitVec.ofNat 16 (v % 64))) s (.offset o) ∧
      Answers (.surf2D a) s (.address (a.base.toNat +
        (((v / 64) * (a.pitch.toNat / 1024) + u / 1024) * 65536 + o.toNat)))) ∧
    (a.tr = .ys → a.bpe = .b128 → ∃ o : BitVec 16,
      Answers (.tileYs64 (BitVec.ofNat 16 (u % 1024)) (BitVec.ofNat 16 (v % 64))) s (.offset o) ∧
      Answers (.surf2D a) s (.address (a.base.toNat +
        (((v / 64) * (a.pitch.toNat / 1024) + u / 1024) * 65536 + o.toNat)))) ∧
    (a.tr = .yf → a.bpe = .b8 → ∃ o : BitVec 16,
      Answers (.tileYf8 (BitVec.ofNat 16 (u % 64)) (BitVec.ofNat 16 (v % 64))) s (.offset o) ∧
      Answers (.surf2D a) s (.address (a.base.toNat +
        (((v / 64) * (a.pitch.toNat / 64) + u / 64) * 4096 + o.toNat)))) ∧
    (a.tr = .yf → a.bpe = .b16 → ∃ o : BitVec 16,
      Answers (.tileYf16 (BitVec.ofNat 16 (u % 128)) (BitVec.ofNat 16 (v % 32))) s (.offset o) ∧
      Answers (.surf2D a) s (.address (a.base.toNat +
        (((v / 32) * (a.pitch.toNat / 128) + u / 128) * 4096 + o.toNat)))) ∧
    (a.tr = .yf → a.bpe = .b32 → ∃ o : BitVec 16,
      Answers (.tileYf16 (BitVec.ofNat 16 (u % 128)) (BitVec.ofNat 16 (v % 32))) s (.offset o) ∧
      Answers (.surf2D a) s (.address (a.base.toNat +
        (((v / 32) * (a.pitch.toNat / 128) + u / 128) * 4096 + o.toNat)))) ∧
    (a.tr = .yf → a.bpe = .b64 → ∃ o : BitVec 16,
      Answers (.tileYf64 (BitVec.ofNat 16 (u % 256)) (BitVec.ofNat 16 (v % 16))) s (.offset o) ∧
      Answers (.surf2D a) s (.address (a.base.toNat +
        (((v / 16) * (a.pitch.toNat / 256) + u / 256) * 4096 + o.toNat)))) ∧
    (a.tr = .yf → a.bpe = .b128 → ∃ o : BitVec 16,
      Answers (.tileYf64 (BitVec.ofNat 16 (u % 256)) (BitVec.ofNat 16 (v % 16))) s (.offset o) ∧
      Answers (.surf2D a) s (.address (a.base.toNat +
        (((v / 16) * (a.pitch.toNat / 256) + u / 256) * 4096 + o.toNat))))

/-- For a surface without tiled resources and LOD 0, the address is that of the 2D tiling at row R*QPitch + V +
Y_Offset and column U + X_Offset (that the offsets enter a 3D address, unconverted, and TileW, are the model's
choices, log entry 32). For TileYS and TileYF, LOD 0 outside the tail, the offset is TileID * tile size plus
something below the tile size, TileID = ((r >> Cr)*(QPitch >> Cv) + (v >> Cv))*(Pitch >> Cu) + (u >> Cu): the order
inside the tile is open (U37, log entry 5). The table of R1272 is lost: that a legacy tiling is SURF.2D at row
r*QPitch + v, and that the unit of TileYS and TileYF is that of R1278, R1272 derives, as the spec's own inferences.
Misaligned bases (U1) and offsets of 2^38 or more (U35) are refused; operands outside the stated ranges (stated3D)
answer some address (a free value, log entry 33). (R1271, R1272, R1278, R402, R1200) -/
def Obligations.ThreeDimensionalSurfaceAddress : Prop :=
  ∀ (s : State) (a : Surf2D),
    let u := (a.u.toNat + a.xoff.toNat) * 2 ^ bpeLog a.bpe
    let v := a.v.toNat + a.yoff.toNat
    (baseAligned2D a = false → exec (.surf3D a) s = .refused .surfaceMisaligned) ∧
    (baseAligned2D a = true → stated3D a = false → ∃ x, exec (.surf3D a) s =
      .next { s with freeCount := s.freeCount + 8, out := .address x }) ∧
    (baseAligned2D a = true → stated3D a = true → 2 ^ 38 ≤ surf3DOffset a →
      exec (.surf3D a) s = .refused .offsetTooLarge) ∧
    (baseAligned2D a = true → stated3D a = true → surf3DOffset a < 2 ^ 38 →
      Answers (.surf3D a) s (.address (a.base.toNat + surf3DOffset a))) ∧
    (a.tr = .none → a.lod = 0 → surf3DOffset a =
      (match a.tile with
        | .linear => (a.r.toNat * a.qpitch.toNat + v) * a.pitch.toNat + u
        | .tileX => tiledOffset .x (a.pitch.toNat / 512) u (a.r.toNat * a.qpitch.toNat + v)
        | .tileY => tiledOffset .y (a.pitch.toNat / 128) u (a.r.toNat * a.qpitch.toNat + v)
        | .tileW => tiledOffset .w (a.pitch.toNat / 64) u (a.r.toNat * a.qpitch.toNat + v))) ∧
    (a.tr ≠ .none → a.lod = 0 → 0 < a.tail.toNat →
      let c := align3DLog (a.tr == .ys) a.bpe
      ∃ w, w < 2 ^ (c.1 + c.2.1 + c.2.2) ∧ surf3DOffset a =
        (((a.r.toNat / 2 ^ c.2.2) * (a.qpitch.toNat / 2 ^ c.2.1) + v / 2 ^ c.2.1) * (a.pitch.toNat / 2 ^ c.1) +
          u / 2 ^ c.1) * 2 ^ (c.1 + c.2.1 + c.2.2) + w)

/-- With f(k) the k-th field of the MCS element and ones its all-1s value: all fields ones answer Clear; else f(0) =
0 answers Slice(f(k)); else f(k) = ones answers Clear, f(k) = 0 a slice of the surface that is not stated (U39,
free, counter +1), otherwise Slice(f(k) - 1) (that the slice not stated, "any value" in U39, is one of the surface's
slices is the model's choice, log entry 20); for one sample, or a sample past the surface's, the slice is a free
value (log entry 33). Quilt: R*QW*QH + Qy*QW + Qx. Cube: 6*ai + f for f below 6, else free. Padding of a surface
that is not of the programming note: width up to i, height up to j (2q if compressed), +2 for a cube, one row and 16
bytes for odd formats, 64 bytes if linear; with an empty unit the size is free. Beyond the limits of R1266 the
quilt's formula is the model's (log entry 30). (R1258, R1266, R1268, R1287, R1289,
spec/93_implementation_defined.md) -/
def Obligations.McsQuiltCubeAndPadding : Prop :=
  ∀ s : State,
    (∀ (n : Samples) (m : BitVec 64) (k : BitVec 4),
      let w := match n with | .s1 => 0 | .s2 => 1 | .s4 => 2 | .s8 => 3 | .s16 => 4
      let ones := 2 ^ w - 1
      let f (j : Nat) : Nat := m.toNat / 2 ^ (w * j) % 2 ^ w
      n ≠ .s1 → k.toNat < 2 ^ w →
      ((∀ j, j < 2 ^ w → f j = ones) → Answers (.mcsDecode n m k) s (.mcs .clear)) ∧
      ((∃ j, j < 2 ^ w ∧ f j ≠ ones) →
        (f 0 = 0 → Answers (.mcsDecode n m k) s (.mcs (.slice (f k.toNat)))) ∧
        (f 0 ≠ 0 → f k.toNat = ones → Answers (.mcsDecode n m k) s (.mcs .clear)) ∧
        (f 0 ≠ 0 → f k.toNat ≠ ones → f k.toNat ≠ 0 →
          Answers (.mcsDecode n m k) s (.mcs (.slice (f k.toNat - 1)))) ∧
        (f 0 ≠ 0 → f k.toNat ≠ ones → f k.toNat = 0 → ∃ x, x < 2 ^ w ∧ exec (.mcsDecode n m k) s =
          .next { s with freeCount := s.freeCount + 1, out := .mcs (.slice x) }))) ∧
    (∀ (n : Samples) (m : BitVec 64) (k : BitVec 4), n = .s1 ∨ sampleCount n ≤ k.toNat →
      ∃ x, exec (.mcsDecode n m k) s =
      .next { s with freeCount := s.freeCount + 1, out := .mcs (.slice x) }) ∧
    (∀ qw qh qx qy r : BitVec 32, Answers (.surfQuilt qw qh qx qy r) s
      (.slice (r.toNat * qw.toNat * qh.toNat + qy.toNat * qw.toNat + qx.toNat))) ∧
    (∀ (ai : BitVec 32) (f : BitVec 3),
      (f.toNat < 6 → Answers (.surfCube ai f) s (.slice (ai.toNat * 6 + f.toNat))) ∧
      (6 ≤ f.toNat → ∃ x, exec (.surfCube ai f) s = .next { s with freeCount := s.freeCount + 8, out := .slice x })) ∧
    (∀ a : SurfPad, ∃ k w h, exec (.surfPad a) s =
      .next { s with freeCount := k, out := .pad { surfPadding a with width := w, height := h } }) ∧
    (∀ a : SurfPad,
      let up (i w : Nat) : Nat := i * ((w + i - 1) / i)
      (a.simple && a.linear) = false → 0 < a.i.toNat → 0 < a.j.toNat → 0 < a.q.toNat →
      Answers (.surfPad a) s (.pad
        { width := up a.i.toNat a.width.toNat
          height := up (if a.cls = .compressed then 2 * a.q.toNat else a.j.toNat) a.height.toNat +
            (if a.cube then 2 else 0) + (if a.cls = .odd then 1 else 0)
          extraBytes := (if a.cls = .odd then 16 else 0) + (if a.linear then 64 else 0)
          roundEnd := false })) ∧
    (∀ a : SurfPad, a.simple = true → a.linear = true → Answers (.surfPad a) s (.pad
      { width := a.width.toNat, height := a.height.toNat, extraBytes := 0, roundEnd := true }))

/-- IA32E.WALK of an advanced context (PRE set, may run; its engine takes walks and the client's TLB has room; a
client that may make the access, MOCS below 62 with PFM 000) whose walk meets a fault of any code at any level, with
or without A/D management, under fault model 01 (not of coherent HDC, which is refused, U49), or 10 with
GAM_FORCE_HALT or a client other than coherent HDC and IC: a next state with a page request record (fresh PRG index,
log entry 19; mode halt), visible to the IOMMU software, a faulted TLB record, no translation of the page left in
the client's TLB or in the HDCs, the engine halted, the miss pipeline blocked and the walk at the end of the waiting
list; memory has only the A/D updates of the walk. Without A/D management the walk faults at the first entry from
the top that is not present or has a reserved bit set (01), lacks U/S or is XD on a fetch (10), or lacks R/W on a
protected write (11). Checking every reserved bit is D16 (R590), the order of the checks D17 (R591), code 10 for XD
D18 (R601), misses blocked for all engines D54 (R1316; log entry 23). The fault of SMEP at the leaf is in the first
part only. (R1308, R1316, R1318, R1334, R713, R1303, R1310, R590, R591, R600, R601, spec/92_eei_decisions.md) -/
def Obligations.FaultAndHaltEntry : Prop :=
  (∀ (s u : State) (e : Engine) (k : Client) (m : BitVec 6) (a : Acc) (va : QWord) (c : Ctx) (code : FaultCode)
    (l : Level) (us : Bool) (f : PageFault) (r : PageRequest),
    (s.eng e).ctx = some c → c.mode = .advanced → c.iommu.preCtx = true → iommuRefusal c = none →
    m.toNat < 62 → pfmField s e (some m) = 0 → (k.readOnly = true → isWrite a = false) →
    walkWaits s (some e) = false →
    tlbCount (tlbOf (some e) k) (s.eng e).facts < tlbCapacity s.par (tlbOf (some e) k) →
    (c.faultModel = 1 ∧ k ≠ .hdcCoherent ∨ c.faultModel = 2 ∧ (bit s.reg404C 0 = true ∨ k ≠ .hdcCoherent ∧ k ≠ .ic)) →
    ia32eWalk s .memory (some e) c va.toNat a = (.fault code l us, u) →
    f = {
      code := code, level := l, va := va.toNat / 4096 * 4096, acc := a, engine := some e, ggtt := false, us := us,
      pasid := c.pasid, contextID := c.contextID } →
    r = { engine := e, pasid := c.pasid, contextID := c.contextID, page := va.toNat / 4096, acc := a
          code := code, level := l, mode := .halt, prgIndex := s.nextPrg, last := false
          terminating := false, taken := false } →
    let tlb := tlbOf (some e) k
    let fs : List Fact := .faulted tlb (va.toNat / 4096) code (a.isFetch && code == .privilege && !us) c.pasid ::
      (s.eng e).facts.filter (fun x => !x.translates tlb false (va.toNat / 4096 * 4096))
    (c.adEnable = false → u = s) ∧
    exec (.ia32eWalk e k m a va) s = .next { s with
      mem := u.mem
      oldBytes := u.oldBytes
      engines := s.engines.set e { s.eng e with run := .halted f, facts := fs }
      miniTlb := if k.isHdc && e == .render then s.miniTlb.filter (fun x => x.vpage.toNat != va.toNat / 4096)
        else s.miniTlb
      outstanding := s.outstanding ++ [r]
      nextPrg := s.nextPrg + 1
      missBlocked := some e
      waiting := s.waiting ++ [⟨.walk ⟨some e, false, k, some m, a, va.toNat⟩, true, none⟩]
      events := { s.events with iommu := s.events.iommu ++ [.pageRequestVisible r] }
      out := .pageFault code l }) ∧
    (∀ (s : State) (e : Engine) (a : Acc) (va : Nat) (c : Ctx) (e4 e3 e2 e1 : QWord) (big : Bool),
      c.adEnable = false →
      va < 2 ^ 48 → s.par.gttCacheEnable = false →
      e4 = memReadQ s (bits c.pml4 (s.par.haw - 1) 12 * 4096 + 8 * nbits va 47 39) →
      e3 = memReadQ s (bits e4 (s.par.haw - 1) 12 * 4096 + 8 * nbits va 38 30) →
      e2 = memReadQ s (bits e3 (s.par.haw - 1) 12 * 4096 + 8 * nbits va 29 21) →
      big = (c.enable64K s.par && bit e2 11) →
      e1 = memReadQ s (bits e2 (s.par.haw - 1) 12 * 4096 +
        (if big then 128 * nbits va 20 16 else 8 * nbits va 20 12)) →
      let sup := c.supervisor && c.iommu.sre
      let denied (x : QWord) (reserved : Nat) : Option FaultCode :=
        if bit x 0 = false ∨ x.toNat &&& (maskOf s.par.haw 51 ||| reserved) ≠ 0 then some .notPresent
        else if (sup = false ∧ bit x 2 = false) ∨ (a = .fetch ∧ c.iommu.ere = true ∧ c.iommu.nxe = true ∧
          bit x 63 = true)
          then some .privilege
        else if isWrite a = true ∧ (c.iommu.wpe = true ∨ sup = false) ∧ bit x 1 = false then some .writePermission
        else none
      let d4 := denied e4 (maskOf 7 7)
      let d3 := denied e3 (if bit e3 7 then maskOf 13 29 else 0)
      let d2 := denied e2 (if bit e2 7 then maskOf 13 20 else 0)
      let d1 := denied e1 (if big then maskOf 12 15 else 0)
      let faults (x : FaultCode) (l : Level) : Prop := ∃ us, ia32eWalk s .memory (some e) c va a = (.fault x l us, s)
      (∀ x, d4 = some x → faults x .pml4) ∧
      (∀ x, d4 = none → d3 = some x → faults x .pdp) ∧
      (∀ x, d4 = none → d3 = none → bit e3 7 = false → d2 = some x → faults x .pd) ∧
      (∀ x, d4 = none → d3 = none → bit e3 7 = false → d2 = none → bit e2 7 = false → d1 = some x → faults x .pt))

/-- IA32E.WALK as before, whose walk meets a fault of any code at any level, with or without A/D management, under
fault model 10 with GAM_FORCE_HALT = 0 and client coherent HDC or IC: the fault code is the answer, the page request
is sent with mode stream and a fresh PRG index (log entry 19), the faulted TLB record is made, the engine's stream
fault count is one more, and only a first fault interrupts the scheduler. The engine keeps running, nothing waits,
memory has only the A/D updates of the walk. (R1308, R1311, R1318, R1320, R1322, R713) -/
def Obligations.FaultAndStreamEntry : Prop :=
  ∀ (s u : State) (e : Engine) (k : Client) (m : BitVec 6) (a : Acc) (va : QWord) (c : Ctx) (code : FaultCode)
    (l : Level) (us : Bool) (f : PageFault) (r : PageRequest),
    (s.eng e).ctx = some c → c.mode = .advanced → c.iommu.preCtx = true → iommuRefusal c = none →
    m.toNat < 62 → pfmField s e (some m) = 0 → (k.readOnly = true → isWrite a = false) →
    walkWaits s (some e) = false →
    tlbCount (tlbOf (some e) k) (s.eng e).facts < tlbCapacity s.par (tlbOf (some e) k) →
    c.faultModel = 2 → bit s.reg404C 0 = false → (k = .hdcCoherent ∨ k = .ic) →
    ia32eWalk s .memory (some e) c va.toNat a = (.fault code l us, u) →
    f = {
      code := code, level := l, va := va.toNat / 4096 * 4096, acc := a, engine := some e, ggtt := false, us := us,
      pasid := c.pasid, contextID := c.contextID } →
    r = { engine := e, pasid := c.pasid, contextID := c.contextID, page := va.toNat / 4096, acc := a
          code := code, level := l, mode := .stream, prgIndex := s.nextPrg, last := false
          terminating := false, taken := false } →
    let tlb := tlbOf (some e) k
    let fs : List Fact := .faulted tlb (va.toNat / 4096) code (a.isFetch && code == .privilege && !us) c.pasid ::
      (s.eng e).facts
    let n := (s.eng e).streamFaultCount
    (c.adEnable = false → u = s) ∧
    exec (.ia32eWalk e k m a va) s = .next { s with
      mem := u.mem
      oldBytes := u.oldBytes
      engines := s.engines.set e { s.eng e with streamFaultCount := n + 1, facts := fs }
      outstanding := s.outstanding ++ [r]
      nextPrg := s.nextPrg + 1
      events := ⟨s.events.driver, if n = 0 then s.events.scheduler ++ [.streamFaultIRQ e] else s.events.scheduler,
        s.events.iommu ++ [.pageRequestVisible r], s.events.commandStreamers⟩
      out := .pageFault code l }

/-- Success (code 0, log entry 14) for PASID p with the PRG index of the newest halt record r of a halted engine e,
which blocks the misses: the record and the faulted records of its page in p leave, e runs, the pipeline opens, and
what waits is done again from the start, in arrival order (log entry 23); an older halt record of e resumes nothing
(log entry 24). FaultContinue of an engine hung with its walk the first faulted waiter of e: that walk completes as
an invalid access, the engine runs, needs a reset only if a TR-TT table read has been lost (R505; log entry 24), and
the other waiting requests are made; one hung by a lost table read runs and still needs its reset; of an engine that
is not hung it has no effect (log entry 26). (R1312, R1316, R1318, R734, R1324, R1386, R505, R1330, R33) -/
def Obligations.ReturnFromHaltAndHang : Prop :=
  ∀ (s : State) (rest : List Input) (e : Engine) (f : PageFault),
    (∀ (r : PageRequest) (p : BitVec 20), s.inbox = .pageResponse p r.prgIndex 0 :: rest →
      findRequest s r.prgIndex = some r →
      r.mode = .halt → r.last = false → r.engine = e → (s.eng e).run = .halted f → s.missBlocked = some e →
      (∀ q ∈ s.outstanding, q.engine = e → q.mode = .halt → q.prgIndex ≤ r.prgIndex) →
      ∃ t : State, step s = outcome (drain t) ∧
        t = { s with inbox := rest, outstanding := s.outstanding.filter (fun q => q.prgIndex != r.prgIndex),
                     missBlocked := none, engines := t.engines, sharedFacts := t.sharedFacts } ∧
        (t.eng e).run = .running ∧ (∀ g, g ≠ e → (t.eng g).run = (s.eng g).run) ∧
        ∀ g, (t.eng g).ctx = (s.eng g).ctx ∧ (t.eng g).desc = (s.eng g).desc ∧
          (∀ tlb c fe, .faulted tlb r.page c fe p ∉ (t.eng g).facts) ∧
          ∀ x, x ∈ (s.eng g).facts → (∀ tlb c fe, x ≠ .faulted tlb r.page c fe p) → x ∈ (t.eng g).facts) ∧
    (∀ (r q : PageRequest) (p : BitVec 20), s.inbox = .pageResponse p r.prgIndex 0 :: rest →
      findRequest s r.prgIndex = some r →
      r.mode = .halt → r.last = false → r.engine = e → q ∈ s.outstanding → q.engine = e → q.mode = .halt →
      r.prgIndex < q.prgIndex → s.waiting = [] →
      NextWith (step s) (fun t => t = { s with
          inbox := rest, outstanding := s.outstanding.filter (fun q => q.prgIndex != r.prgIndex)
          engines := t.engines, sharedFacts := t.sharedFacts } ∧ ∀ g, (t.eng g).run = (s.eng g).run)) ∧
    (∀ (q : WalkReq) (l : Option Nat) (ps qs : List Waiter), s.inbox = .faultContinue e :: rest →
      (s.eng e).run = .hung f true → s.waiting = ps ++ ⟨.walk q, true, l⟩ :: qs → q.engine = some e →
      (∀ w ∈ ps, w.faulted = true → w.isOf e = false) →
      step s = outcome (drain { s with
        inbox := rest, waiting := ps ++ qs, out := .dropped,
          engines := s.engines.set e { s.eng e with run := .running, needsReset := (s.eng e).lostTable } })) ∧
    (∀ (q : WalkReq) (l : Option Nat), s.inbox = .faultContinue e :: rest →
      (s.eng e).run = .hung f true → s.waiting = [⟨.walk q, true, l⟩] → q.engine = some e →
      step s = .next { s with
        inbox := rest, waiting := [], out := .dropped,
          engines := s.engines.set e { s.eng e with run := .running, needsReset := (s.eng e).lostTable } }) ∧
    (s.inbox = .faultContinue e :: rest → (s.eng e).run = .hung f false → s.waiting = [] →
      step s = .next { s with inbox := rest, engines := s.engines.set e { s.eng e with run := .running } }) ∧
    (s.inbox = .faultContinue e :: rest → (∀ g h, (s.eng e).run ≠ .hung g h) →
      step s = .next { s with inbox := rest })

/-- A write of the control register (with the other half of its DWord) sets PRE; setting it clears S, UPGRI and RF,
clearing it sets S. A response whose PRG index matches no outstanding request sets UPGRI and changes nothing else. A
failing response (any code but 0, log entry 14, D55) for PASID p, to a request r that is not a termination's, sets
RF, removes r and the non-LAST requests of p, each with the faulted TLB records of its page, and reports to the
scheduler and remembers as bad and failed each context of p that is resident nowhere: one with a request of p, or
one that has left its engine (`awayContexts`, log entry 24). With no context of p resident nothing else changes.
With a context c of p resident on one engine e, all that waits being requests of e outside a TR-TT table read (whose
loss is R1330): c is marked bad and failed and the scheduler told, a halted e runs and the miss pipeline that its
fault blocks opens, nothing waits any more, each access that waited goes back as an invalid access (log entry 32),
and no other engine's context or run state changes. The control register at offset 4 of the capability, with the
status half beside it, is from general knowledge (R166, U46; log entry 28). (R168, R166, R1318, R1324, R1336, R162,
R734, spec/92_eei_decisions.md, spec/93_implementation_defined.md) -/
def Obligations.PageRequestStatusAndResponses : Prop :=
  ∀ (s : State) (rest : List Input),
    (∀ (w : Nat), s.inbox = .cfgWrite (s.par.prsCapOfs + 4) 2 w :: rest → s.par.prsCapOfs % 4 = 0 →
      s.par.pasidCapOfs ≠ s.par.prsCapOfs → s.par.atsCapOfs ≠ s.par.prsCapOfs →
      let on := !s.pci.pre && w % 2 == 1
      let off := s.pci.pre && w % 2 == 0
      step s = .next { s with inbox := rest, pci := ⟨s.pci.pasidControl, s.pci.atsControl, w % 2 == 1,
        (s.pci.stopped && !on) || off, s.pci.upgri && !on, s.pci.rf && !on, s.pci.opra⟩ }) ∧
    (∀ (p : BitVec 20) (i : Nat) (rc : BitVec 4), s.inbox = .pageResponse p i rc :: rest → findRequest s i = none →
      step s = .next { s with inbox := rest, pci := { s.pci with upgri := true } }) ∧
    (∀ (r : PageRequest) (p : BitVec 20) (rc : BitVec 4), s.inbox = .pageResponse p r.prgIndex rc :: rest →
      findRequest s r.prgIndex = some r → rc ≠ 0 → r.terminating = false →
      let gone (t : State) : Prop :=
        t.outstanding = s.outstanding.filter (fun q => q.prgIndex != r.prgIndex && (q.last || q.pasid != p)) ∧
        ∀ g, ∀ q ∈ s.outstanding, q.prgIndex = r.prgIndex ∨ (q.last = false ∧ q.pasid = p) →
          ∀ tlb c fe, .faulted tlb q.page c fe q.pasid ∉ (t.eng g).facts
      let told (t : State) (k : BitVec 32) : Prop := k ∈ t.badContexts ∧ k ∈ t.failedContexts ∧
        ∃ g, .contextError g p k .responseFailure ∈ t.events.scheduler
      let absent (t : State) : Prop :=
        (∀ q ∈ s.outstanding, q.pasid = p → q.terminating = false → isResident s q.contextID = false →
          told t q.contextID) ∧
        ∀ x ∈ s.awayContexts, x.pasid = p → isResident s x.contextID = false → told t x.contextID
      (s.waiting = [] → (∀ g, (s.eng g).inPasid p = false) → NextWith (step s) (fun t => t = { s with
          inbox := rest, pci := { s.pci with rf := true }, outstanding := t.outstanding
          badContexts := t.badContexts, failedContexts := t.failedContexts, engines := t.engines,
            sharedFacts := t.sharedFacts
          events := { s.events with scheduler := t.events.scheduler } } ∧
        (∀ g, t.eng g = { s.eng g with facts := (t.eng g).facts }) ∧ gone t ∧ absent t)) ∧
      (∀ (e : Engine) (c : Ctx), (s.eng e).ctx = some c → (s.eng e).inPasid p = true →
        (∀ g, g ≠ e → (s.eng g).inPasid p = false) → (∀ w ∈ s.waiting, w.isOf e = true ∧ w.table = none) →
        NextWith (step s) (fun t => gone t ∧ absent t ∧ t.inbox = rest ∧ t.mem = s.mem ∧ t.waiting = [] ∧
          t.pci = { s.pci with rf := true } ∧ (t.eng e).ctx = some { c with bad := true } ∧
          c.contextID ∈ t.failedContexts ∧ .contextError e p c.contextID .responseFailure ∈ t.events.scheduler ∧
          (∀ f, (s.eng e).run = .halted f → (t.eng e).run = .running ∧ t.missBlocked ≠ some e) ∧
          ((∀ f, (s.eng e).run ≠ .halted f) → (t.eng e).run = (s.eng e).run ∧ t.missBlocked = s.missBlocked) ∧
          (s.missBlocked ≠ some e → t.missBlocked = s.missBlocked) ∧
          (∀ g, g ≠ e → (t.eng g).ctx = (s.eng g).ctx ∧ (t.eng g).run = (s.eng g).run) ∧
          (∀ x ∈ s.returns, x ∈ t.returns) ∧
          ∀ w a, w ∈ s.waiting → w.req = .access a → ∃ x ∈ t.returns, x.tag = a.tag ∧ x.slice = a.slice ∧
            x.client = a.client ∧ x.data.length = a.op.readLen ∧ x.null = false ∧ x.done = false ∧
              x.code = .noFault)))

/-- With nothing waiting but requests of this engine and messages to it (which a reset ends, log entry 26): after
EngineReset(e) the engine is idle with no context, its stream fault count 0, needing no reset, no table read lost;
nothing waits; the miss pipeline is open if its fault blocked it; PASID_State of an advanced context's PASID is one
less, other PASIDs unchanged; outstanding requests, memory and every other engine are unchanged; the engine's cache
facts, unknown in R1381, are kept and may be used or not (log entries 16, 25); the TR-TT registers are kept unless e
is Render, which gets their reset values and an empty HDC port; completion waits while a request of e is untaken.
The table of R1381 is decision D60 of the spec. (R1381, R1384, R1386, R1388, R1390, spec/92_eei_decisions.md) -/
def Obligations.EngineResetTakesTheContextOut : Prop :=
  ∀ (s : State) (rest : List Input) (e : Engine), s.inbox = .engineReset e :: rest →
    (∀ w ∈ s.waiting, w.req.engine = some e) → NextWith (step s) (fun t =>
      (t.eng e).ctx = none ∧ (t.eng e).run = .idle ∧ (t.eng e).streamFaultCount = 0 ∧ (t.eng e).needsReset = false ∧
      (t.eng e).lostTable = false ∧
      (t.eng e).facts = (s.eng e).facts ∧ t.waiting = [] ∧ t.missBlocked ≠ some e ∧
      (s.missBlocked ≠ some e → t.missBlocked = s.missBlocked) ∧
      ((t.eng e).resetPending = true ↔ ∃ r ∈ s.outstanding, r.engine = e ∧ r.taken = false) ∧
      (∀ f, f ≠ e → t.eng f = s.eng f) ∧ t.outstanding = s.outstanding ∧ t.mem = s.mem ∧ t.inbox = rest ∧
      (∀ c, (s.eng e).ctx = some c → c.advanced = true → (s.pasidState.map Prod.fst).Nodup →
        pasidCount t.pasidState c.pasid = pasidCount s.pasidState c.pasid - 1 ∧
        ∀ p, p ≠ c.pasid → pasidCount t.pasidState p = pasidCount s.pasidState p) ∧
      (e ≠ .render → t.trtt = s.trtt ∧ t.reg4DFC = s.reg4DFC ∧ t.nullTileCount = s.nullTileCount ∧
        t.hdcPorts = s.hdcPorts ∧ t.hdcQueue = s.hdcQueue) ∧
      (e = .render → t.trtt = ⟨0, 0, 0, 0, 0⟩ ∧ t.reg4DFC = 0 ∧ t.nullTileCount = 0 ∧ t.hdcPorts = [] ∧
        t.hdcQueue = []))

/-- The five descriptor registers take what the command streamer writes, at any time: R60 names only the time
between Context Receive Ready and Context Launched, the rest is the model's choice (log entry 26). In a delivery
(engine e switching, nothing waiting), Context Launched (message bit 1 with its mask bit) makes the context the
registers define (IOMMU entry of its function and PASID, log entry 17) resident on e, running with empty caches and
no stream faults, bad if remembered so (log entry 24), counts its PASID if advanced (the increment of PASID_State
R118 derives from the decrement, as the spec's own inference), confirms it to the command streamer, loads the memory
interface control table saved with its context ID and for Render its L3 control table and TR-TT registers (log entry
18); an invalid descriptor is also told to the driver (R1352, log entry 32). Fault model 0 (legacy) or 1 or 2
(advanced, PASID enabled, no nesting, GTT cache off) is required. Memory is unchanged. Outside a delivery the
message has no effect (log entry 26). That a message bit without its mask bit has no effect is from general
knowledge (R682, U41; log entry 28). (R60, R118, R664, R668, R670, R680, R682, R732, R497, R252, R1336, R1352) -/
def Obligations.ContextDelivery : Prop :=
  ∀ (s : State) (rest : List Input) (e : Engine),
    (∀ d : Descriptor, s.inbox = .csDescriptor e d :: rest →
      step s = .next { s with inbox := rest, engines := s.engines.set e { s.eng e with desc := d } }) ∧
    (∀ v : DWord, s.inbox = .csRegWrite e (messageOffset e) v :: rest → (bit v 0 && bit v 16) = false →
      (s.eng e).run ≠ .switching → step s = .next { s with inbox := rest }) ∧
    (∀ (c : Ctx) (v : DWord), s.inbox = .csRegWrite e (messageOffset e) v :: rest → (s.eng e).run = .switching →
      bit v 1 = true → bit v 17 = true → (bit v 0 && bit v 16) = false → s.waiting = [] →
      let f := (s.eng e).desc.element.extractLsb' 9 3
      let p := (s.eng e).desc.pdp0.extractLsb' 0 20
      c = ctxOfDescriptor (s.eng e).desc (if bit (s.eng e).desc.element 3 then IommuEntry.absent f p
        else findIommu s.iommu f p) →
      (c.advanced = false → c.faultModel = 0) →
      (c.advanced = true → (c.faultModel = 1 ∨ c.faultModel = 2) ∧ c.iommu.paside = true ∧ c.iommu.neste = false ∧
        s.par.gttCacheEnable = false) →
      NextWith (step s) (fun t =>
        (t.eng e) = { s.eng e with ctx := some { c with bad := s.badContexts.contains c.contextID }, run := .running
                                   facts := [], streamFaultCount := 0 } ∧
        (∀ f, f ≠ e → t.eng f = s.eng f) ∧ t.mem = s.mem ∧ t.inbox = rest ∧ t.waiting = [] ∧
        t.events = { s.events with
          driver := if c.valid then s.events.driver else s.events.driver ++ [.invalidDescriptor e]
          commandStreamers := s.events.commandStreamers ++ [.contextConfirmed e] } ∧
        (t.trtt = if e = .render then savedTrtt s.trttSaved c.contextID else s.trtt) ∧
        (t.l3Control = if e = .render then (savedL3 s.l3Saved c.contextID).getD s.l3Control else s.l3Control) ∧
        (savedMocs s.mocsSaved e c.contextID = none → t.gamt = s.gamt) ∧
        (∀ l, savedMocs s.mocsSaved e c.contextID = some l → t.gamt = (setMocs s e l).gamt) ∧
        ∀ p, pasidCount t.pasidState p = pasidCount s.pasidState p + if c.advanced && c.pasid == p then 1 else 0))
end

