-- ==== Sys2Proof/Laws/Memory.lean ====
section
/-! SUPPORT. The laws of memory: the canonical form is kept, a read after a write gives what was written and every
other address reads as before, and little-endian numbers come back. -/
namespace Sys2Proof.Machine

theorem Memory.wfFrom_mono {lo lo' : Nat} {m : List Host.Cell} (h : Memory.wfFrom lo m = true) (hl : lo' ≤ lo) :
    Memory.wfFrom lo' m = true := by
  cases m with
  | nil => rfl
  | cons c m =>
    simp only [Memory.wfFrom, Bool.and_eq_true, decide_eq_true_eq] at h ⊢
    exact ⟨⟨by omega, h.1.2⟩, h.2⟩

theorem Memory.read_below {lo a : Nat} {m : List Host.Cell} (h : Memory.wfFrom lo m = true) (ha : a < lo) :
    Memory.read m a = absentByte := by
  cases m with
  | nil => rfl
  | cons c m =>
    simp only [Memory.wfFrom, Bool.and_eq_true, decide_eq_true_eq] at h
    simp only [Memory.read]
    rw [if_neg (by omega), if_pos (by omega)]

theorem Memory.write_wfFrom {lo a : Nat} {m : List Host.Cell} (v : Byte) (h : Memory.wfFrom lo m = true)
    (ha : lo ≤ a) : Memory.wfFrom lo (Memory.write m a v) = true := by
  induction m generalizing lo with
  | nil =>
    simp only [Memory.write]
    split <;> simp_all [Memory.wfFrom]
  | cons c m ih =>
    simp only [Memory.wfFrom, Bool.and_eq_true, decide_eq_true_eq] at h
    simp only [Memory.write]
    split
    · split
      · exact Memory.wfFrom_mono h.2 (by omega)
      · simp_all [Memory.wfFrom]
    · split
      · split <;> simp_all [Memory.wfFrom]
      · simp only [Memory.wfFrom, Bool.and_eq_true, decide_eq_true_eq]
        exact ⟨h.1, ih h.2 (by omega)⟩

theorem Memory.write_wf {a : Nat} {m : List Host.Cell} (v : Byte) (h : Memory.wf m = true) :
    Memory.wf (Memory.write m a v) = true := Memory.write_wfFrom v h (Nat.zero_le a)

theorem Memory.read_write {lo : Nat} {m : List Host.Cell} (h : Memory.wfFrom lo m = true) (a x : Nat) (v : Byte) :
    Memory.read (Memory.write m a v) x = if x = a then v else Memory.read m x := by
  induction m generalizing lo with
  | nil =>
    simp only [Memory.write]
    split
    · rename_i hv
      subst hv
      simp [Memory.read]
    · simp only [Memory.read]
      by_cases hx : x = a
      · rw [if_pos hx.symm, if_pos hx]
      · rw [if_neg (fun e => hx e.symm), if_neg hx, ite_self]
  | cons c m ih =>
    obtain ⟨k, b⟩ := c
    simp only [Memory.wfFrom, Bool.and_eq_true, decide_eq_true_eq] at h
    simp only [Memory.write]
    by_cases hk : k = a
    · subst hk
      rw [if_pos rfl]
      by_cases hv : v = absentByte
      · rw [if_pos hv]
        by_cases hx : x = k
        · subst hx
          rw [if_pos rfl, Memory.read_below h.2 (by omega), hv]
        · rw [if_neg hx]
          simp only [Memory.read]
          rw [if_neg (fun e => hx e.symm)]
          split
          · exact Memory.read_below h.2 (by omega)
          · rfl
      · rw [if_neg hv]
        simp only [Memory.read]
        by_cases hx : x = k
        · rw [if_pos hx.symm, if_pos hx]
        · rw [if_neg (fun e => hx e.symm), if_neg hx, if_neg (Ne.symm hx)]
    · rw [if_neg hk]
      by_cases ha : a < k
      · rw [if_pos ha]
        by_cases hv : v = absentByte
        · rw [if_pos hv]
          split
          · rename_i hx
            subst hx
            simp only [Memory.read]
            rw [if_neg hk, if_pos ha, hv]
          · rfl
        · rw [if_neg hv]
          by_cases hx : x = a
          · subst hx
            simp only [Memory.read, if_true]
          · rw [if_neg hx]
            conv_lhs => simp only [Memory.read]
            rw [if_neg (fun e => hx e.symm)]
            by_cases hxa : x < a
            · rw [if_pos hxa]
              simp only [Memory.read]
              rw [if_neg (by omega), if_pos (by omega)]
            · rw [if_neg hxa]
              simp only [Memory.read]
      · rw [if_neg ha]
        simp only [Memory.read]
        by_cases hx : k = x
        · rw [if_pos hx, if_neg (by omega), if_pos hx]
        · rw [if_neg hx, if_neg hx]
          by_cases hxk : x < k
          · rw [if_pos hxk, if_pos hxk, if_neg (by omega)]
          · rw [if_neg hxk, if_neg hxk]
            exact ih h.2

/-! ### Several bytes -/

theorem Memory.writeBytes_wf {m : List Host.Cell} (a : Nat) (bs : List Byte) (h : Memory.wf m = true) :
    Memory.wf (Memory.writeBytes m a bs) = true := by
  induction bs generalizing m a with
  | nil => exact h
  | cons b bs ih => exact ih (a + 1) (Memory.write_wf b h)

theorem Memory.read_writeBytes {m : List Host.Cell} (h : Memory.wf m = true) (a : Nat) (bs : List Byte) (x : Nat) :
    Memory.read (Memory.writeBytes m a bs) x =
      if a ≤ x ∧ x < a + bs.length then bs.getD (x - a) 0 else Memory.read m x := by
  induction bs generalizing m a with
  | nil =>
    simp only [Memory.writeBytes, List.length_nil]
    rw [if_neg (by omega)]
  | cons b bs ih =>
    simp only [Memory.writeBytes, List.length_cons]
    rw [ih (Memory.write_wf b h) (a + 1), Memory.read_write h]
    by_cases hx : x = a
    · subst hx
      rw [if_neg (by omega), if_pos rfl, if_pos (by omega)]
      simp
    · rw [if_neg hx]
      by_cases hr : a + 1 ≤ x ∧ x < a + 1 + bs.length
      · rw [if_pos hr, if_pos (by omega)]
        have : x - a = (x - (a + 1)) + 1 := by omega
        rw [this, List.getD_cons_succ]
      · rw [if_neg hr, if_neg (by omega)]

theorem Memory.length_readBytes (m : List Host.Cell) (a n : Nat) : (Memory.readBytes m a n).length = n := by
  induction n generalizing a with
  | zero => rfl
  | succ n ih => simp [Memory.readBytes, ih]

theorem Memory.readBytes_congr {m m' : List Host.Cell} {a n : Nat}
    (h : ∀ x, a ≤ x → x < a + n → Memory.read m x = Memory.read m' x) :
    Memory.readBytes m a n = Memory.readBytes m' a n := by
  induction n generalizing a with
  | zero => rfl
  | succ n ih =>
    simp only [Memory.readBytes]
    rw [h a (by omega) (by omega), ih (fun x h1 h2 => h x (by omega) (by omega))]

/-- A read of other addresses than those written. -/
theorem Memory.readBytes_writeBytes_other {m : List Host.Cell} (h : Memory.wf m = true) {a b n : Nat} {bs : List Byte}
    (hd : b + n ≤ a ∨ a + bs.length ≤ b) :
    Memory.readBytes (Memory.writeBytes m a bs) b n = Memory.readBytes m b n := by
  apply Memory.readBytes_congr
  intro x h1 h2
  rw [Memory.read_writeBytes h, if_neg (by omega)]

theorem Memory.readBytes_writeBytes_aux {m : List Host.Cell} (h : Memory.wf m = true) (a : Nat) (bs : List Byte) :
    Memory.readBytes (Memory.writeBytes m a bs) a bs.length = bs := by
  induction bs generalizing m a with
  | nil => rfl
  | cons b bs ih =>
    simp only [List.length_cons, Memory.readBytes]
    have h0 : Memory.read (Memory.writeBytes m a (b :: bs)) a = b := by
      rw [Memory.read_writeBytes h, if_pos (by simp)]
      simp
    rw [h0]
    congr 1
    exact ih (Memory.write_wf b h) (a + 1)

/-- A read of exactly the bytes written. -/
theorem Memory.readBytes_writeBytes {m : List Host.Cell} (h : Memory.wf m = true) (a n : Nat) (bs : List Byte)
    (hn : bs.length = n) : Memory.readBytes (Memory.writeBytes m a bs) a n = bs := by
  subst hn
  exact Memory.readBytes_writeBytes_aux h a bs

/-- Memories in the canonical form that read the same are the same data. -/
theorem Memory.eq_of_reads {lo : Nat} {m m' : List Host.Cell} (h : Memory.wfFrom lo m = true)
    (h' : Memory.wfFrom lo m' = true) (hr : ∀ x, Memory.read m x = Memory.read m' x) : m = m' := by
  induction m generalizing lo m' with
  | nil =>
    cases m' with
    | nil => rfl
    | cons c m' =>
      simp only [Memory.wfFrom, Bool.and_eq_true, decide_eq_true_eq] at h'
      have := hr c.1
      simp only [Memory.read, if_true] at this
      exact absurd this.symm h'.1.2
  | cons c m ih =>
    cases m' with
    | nil =>
      simp only [Memory.wfFrom, Bool.and_eq_true, decide_eq_true_eq] at h
      have := hr c.1
      simp only [Memory.read, if_true] at this
      exact absurd this h.1.2
    | cons c' m' =>
      obtain ⟨k, b⟩ := c
      obtain ⟨k', b'⟩ := c'
      simp only [Memory.wfFrom, Bool.and_eq_true, decide_eq_true_eq] at h h'
      have hk : k = k' := by
        rcases Nat.lt_trichotomy k k' with hlt | heq | hgt
        · have := hr k
          simp only [Memory.read, if_true] at this
          rw [if_neg (by omega), if_pos hlt] at this
          exact absurd this h.1.2
        · exact heq
        · have := hr k'
          simp only [Memory.read, if_true] at this
          rw [if_neg (by omega), if_pos hgt] at this
          exact absurd this.symm h'.1.2
      subst hk
      have hb := hr k
      simp only [Memory.read, if_true] at hb
      subst hb
      congr 1
      apply ih h.2 h'.2
      intro x
      have hx := hr x
      simp only [Memory.read] at hx
      by_cases h1 : k = x
      · rw [Memory.read_below h.2 (by omega), Memory.read_below h'.2 (by omega)]
      · rw [if_neg h1, if_neg h1] at hx
        by_cases h2 : x < k
        · rw [Memory.read_below h.2 (by omega), Memory.read_below h'.2 (by omega)]
        · rwa [if_neg h2, if_neg h2] at hx

/-! ### Little-endian numbers -/

theorem length_leBytes (n v : Nat) : (leBytes n v).length = n := by
  induction n generalizing v with
  | zero => rfl
  | succ n ih => simp [leBytes, ih]

theorem leNat_leBytes (n v : Nat) : leNat (leBytes n v) = v % 256 ^ n := by
  induction n generalizing v with
  | zero => simp [leBytes, leNat, Nat.mod_one]
  | succ n ih =>
    have h : (256 : Nat) ^ (n + 1) = 256 * 256 ^ n := by ring
    simp only [leBytes, leNat, ih, BitVec.toNat_ofNat]
    rw [h, Nat.mod_mul]

theorem leNat_leBytes_of_lt {n v : Nat} (h : v < 256 ^ n) : leNat (leBytes n v) = v := by
  rw [leNat_leBytes, Nat.mod_eq_of_lt h]

/-! ### The memory primitives of R9 -/

theorem memStore_mem (s : State) (a : Nat) (bs : List Byte) : (memStore s a bs).mem = Memory.writeBytes s.mem a bs := rfl

theorem memStore_wf {s : State} (a : Nat) (bs : List Byte) (h : Memory.wf s.mem = true) :
    Memory.wf (memStore s a bs).mem = true := Memory.writeBytes_wf a bs h

@[simp] theorem storeSeen_mem (s : State) (w : WriteVia) (a : Nat) (d : List Byte) :
    (storeSeen s w a d).mem = Memory.writeBytes s.mem a d := rfl
@[simp] theorem storeSeen_engines (s : State) (w : WriteVia) (a : Nat) (d : List Byte) :
    (storeSeen s w a d).engines = s.engines := rfl
@[simp] theorem storeSeen_par (s : State) (w : WriteVia) (a : Nat) (d : List Byte) :
    (storeSeen s w a d).par = s.par := rfl
@[simp] theorem memWriteQ_mem (s : State) (a : Nat) (v : QWord) :
    (memWriteQ s a v).mem = Memory.writeBytes s.mem a (leBytes 8 v.toNat) := rfl

/-- A QWord read after a QWord write to the same address. -/
theorem memReadQ_memWriteQ {s : State} (h : Memory.wf s.mem = true) (a : Nat) (v : QWord) :
    memReadQ (memWriteQ s a v) a = v := by
  unfold memReadQ memRead
  rw [memWriteQ_mem, Memory.readBytes_writeBytes h a 8 _ (length_leBytes 8 _),
    leNat_leBytes_of_lt (lt_of_lt_of_eq v.isLt (by norm_num)), BitVec.ofNat_toNat, BitVec.setWidth_eq]

/-- Everything an atomic read-modify-write can do: it answers the old value and `f` of it, the entry then holds the
new value, every byte outside the entry reads as before, and nothing but memory, and the record of what it held
before, changes. -/
theorem atomicRmwQ_spec {s : State} (h : Memory.wf s.mem = true) (a : Nat) (f : QWord → QWord) :
    (atomicRmwQ s a f).1 = (memReadQ s a, f (memReadQ s a))
      ∧ memReadQ (atomicRmwQ s a f).2 a = f (memReadQ s a)
      ∧ (∀ x, x < a ∨ a + 8 ≤ x → Memory.read (atomicRmwQ s a f).2.mem x = Memory.read s.mem x)
      ∧ (atomicRmwQ s a f).2 =
          { s with mem := (atomicRmwQ s a f).2.mem, oldBytes := (atomicRmwQ s a f).2.oldBytes }
      ∧ Memory.wf (atomicRmwQ s a f).2.mem = true := by
  unfold atomicRmwQ
  refine ⟨rfl, ?_, ?_, ?_, ?_⟩
  · dsimp only
    split
    · rename_i hf
      rw [hf]
    · exact memReadQ_memWriteQ h a _
  · intro x hx
    dsimp only
    split
    · rfl
    · rw [memWriteQ_mem, Memory.read_writeBytes h, if_neg (by rw [length_leBytes]; omega)]
  · dsimp only
    split <;> rfl
  · dsimp only
    split
    · exact h
    · exact memStore_wf a _ h

end Sys2Proof.Machine
end

