-- ==== Sys2Proof/Laws/Codec.lean ====
section
/-! SUPPORT. The laws of the operand codecs and of records: what is laid out is read back, and how many bytes it
takes. -/
namespace Sys2Proof

open Machine

/-- A codec reads back what it lays out, whatever follows, in at most `n` bytes. -/
structure Codec.Lawful {α : Type} (c : Codec α) (n : Nat) : Prop where
  dec_enc : ∀ a rest, c.dec (c.enc a ++ rest) = some (a, rest)
  size : ∀ a, (c.enc a).length ≤ n

theorem Codec.bv_lawful {w n : Nat} (h : w ≤ 8 * n) : (Codec.bv w n).Lawful n where
  dec_enc v rest := by
    have hl : (leBytes n v.toNat).length = n := length_leBytes n _
    have ht : (leBytes n v.toNat ++ rest).take n = leBytes n v.toNat := by
      rw [List.take_append_of_le_length (le_of_eq hl.symm), List.take_of_length_le (le_of_eq hl)]
    have hd : (leBytes n v.toNat ++ rest).drop n = rest := by
      rw [List.drop_append_of_le_length (le_of_eq hl.symm), List.drop_of_length_le (le_of_eq hl), List.nil_append]
    have h256 : (256 : Nat) ^ n = 2 ^ (8 * n) := by rw [pow_mul]; norm_num
    have hlt : v.toNat < 256 ^ n := lt_of_lt_of_le v.isLt (by rw [h256]; exact Nat.pow_le_pow_right (by norm_num) h)
    simp only [Codec.bv]
    rw [ht, hd, leNat_leBytes_of_lt hlt, if_pos ⟨by rw [List.length_append, hl]; omega, v.isLt⟩]
    simp
  size v := le_of_eq (length_leBytes n _)

theorem Codec.enum_lawful {α : Type} [DecidableEq α] (xs : List α)
    (h : ∀ a, xs[(BitVec.ofNat 8 (xs.idxOf a)).toNat]? = some a) : (Codec.enum xs).Lawful 1 where
  dec_enc a rest := by
    simp only [Codec.enum, List.cons_append, List.nil_append]
    rw [h a]
    rfl
  size _ := le_refl 1

theorem Codec.bool_lawful : Codec.bool.Lawful 1 := Codec.enum_lawful _ (by decide)

theorem Codec.unit_lawful : Codec.unit.Lawful 0 where
  dec_enc _ _ := rfl
  size _ := le_refl 0

theorem Codec.pair_lawful {α β : Type} {c : Codec α} {d : Codec β} {m n : Nat} (hc : c.Lawful m) (hd : d.Lawful n) :
    (Codec.pair c d).Lawful (m + n) where
  dec_enc x rest := by
    simp only [Codec.pair]
    rw [List.append_assoc, hc.dec_enc]
    dsimp only
    rw [hd.dec_enc]
  size x := by
    have h1 := hc.size x.1
    have h2 := hd.size x.2
    simp only [Codec.pair, List.length_append]
    omega

theorem Codec.map_lawful {α β : Type} {c : Codec α} {n : Nat} (hc : c.Lawful n) (f : α → β) (g : β → α)
    (hfg : ∀ b, f (g b) = b) : (Codec.map c f g).Lawful n where
  dec_enc b rest := by
    simp only [Codec.map]
    rw [hc.dec_enc]
    simp [hfg]
  size b := hc.size (g b)

theorem Codec.sum_lawful {α β : Type} {c : Codec α} {d : Codec β} {m n : Nat} (hc : c.Lawful m) (hd : d.Lawful n) :
    (Codec.sum c d).Lawful (m + n + 1) where
  dec_enc x rest := by
    cases x with
    | inl a =>
      simp [Codec.sum, hc.dec_enc]
    | inr b =>
      simp [Codec.sum, hd.dec_enc]
  size x := by
    cases x with
    | inl a =>
      have := hc.size a
      simp only [Codec.sum, List.length_cons]
      omega
    | inr b =>
      have := hd.size b
      simp only [Codec.sum, List.length_cons]
      omega

theorem Codec.Lawful.mono {α : Type} {c : Codec α} {m n : Nat} (h : c.Lawful m) (hmn : m ≤ n) : c.Lawful n where
  dec_enc := h.dec_enc
  size a := le_trans (h.size a) hmn

/-! ### The operand codecs -/

theorem cEngine_lawful : cEngine.Lawful 1 := Codec.enum_lawful _ (by intro a; cases a <;> rfl)

theorem cClient_lawful : cClient.Lawful 1 := Codec.enum_lawful _ (by intro a; cases a <;> rfl)

theorem cAcc_lawful : cAcc.Lawful 1 := Codec.enum_lawful _ (by intro a; cases a <;> rfl)

theorem cOptEngine_lawful : cOptEngine.Lawful 2 :=
  Codec.map_lawful (Codec.sum_lawful Codec.unit_lawful cEngine_lawful) _ _ (by intro b; cases b <;> rfl)

theorem cWalkDir_lawful : cWalkDir.Lawful 1 := Codec.enum_lawful _ (by intro a; cases a <;> rfl)

theorem cYuv_lawful : cYuv.Lawful 1 := Codec.enum_lawful _ (by intro a; cases a <;> rfl)

theorem cTileMode_lawful : cTileMode.Lawful 1 := Codec.enum_lawful _ (by intro a; cases a <;> rfl)

theorem cTr_lawful : cTr.Lawful 1 := Codec.enum_lawful _ (by intro a; cases a <;> rfl)

theorem cBpe_lawful : cBpe.Lawful 1 := Codec.enum_lawful _ (by intro a; cases a <;> rfl)

theorem cSamples_lawful : cSamples.Lawful 1 := Codec.enum_lawful _ (by intro a; cases a <;> rfl)

theorem cPad_lawful : cPad.Lawful 1 := Codec.enum_lawful _ (by intro a; cases a <;> rfl)

theorem cCode_lawful : cCode.Lawful 1 := Codec.enum_lawful _ (by intro a; cases a <;> rfl)

theorem cModel_lawful : cModel.Lawful 1 := Codec.enum_lawful _ (by intro a; cases a <;> rfl)

theorem cMem_lawful : cMem.Lawful 1 := Codec.enum_lawful _ (by intro a; cases a <;> rfl)

theorem cPos_lawful : cPos.Lawful 2 :=
  Codec.map_lawful (Codec.pair_lawful (Codec.bv_lawful (w := 2) (n := 1) (by decide)) (Codec.bv_lawful (w := 2) (n := 1) (by decide))) _ _ (fun _ => rfl)

theorem cScope_lawful : cScope.Lawful 15 :=
  Codec.map_lawful (Codec.sum_lawful (Codec.sum_lawful Codec.unit_lawful cEngine_lawful) (Codec.sum_lawful (Codec.bv_lawful (w := 20) (n := 3) (by decide)) (Codec.pair_lawful (Codec.bv_lawful (w := 20) (n := 3) (by decide)) (Codec.bv_lawful (w := 36) (n := 5) (by decide))))) _ _ (by intro b; cases b <;> rfl)

theorem cStructs_lawful : cStructs.Lawful 3 :=
  Codec.map_lawful (Codec.pair_lawful Codec.bool_lawful (Codec.pair_lawful Codec.bool_lawful Codec.bool_lawful)) _ _ (fun _ => rfl)

theorem cPageReq_lawful : cPageReq.Lawful 11 :=
  Codec.map_lawful (Codec.pair_lawful Codec.bool_lawful (Codec.pair_lawful (Codec.bv_lawful (w := 2) (n := 1) (by decide)) (Codec.pair_lawful (Codec.bv_lawful (w := 2) (n := 1) (by decide)) (Codec.pair_lawful (Codec.bv_lawful (w := 36) (n := 5) (by decide)) (Codec.pair_lawful Codec.bool_lawful (Codec.pair_lawful (Codec.bv_lawful (w := 8) (n := 1) (by decide)) Codec.bool_lawful)))))) _ _ (fun _ => rfl)

theorem cPageResp_lawful : cPageResp.Lawful 13 :=
  Codec.map_lawful (Codec.pair_lawful Codec.bool_lawful (Codec.pair_lawful (Codec.bv_lawful (w := 27) (n := 4) (by decide)) (Codec.pair_lawful Codec.bool_lawful (Codec.pair_lawful (Codec.bv_lawful (w := 2) (n := 1) (by decide)) (Codec.pair_lawful (Codec.bv_lawful (w := 2) (n := 1) (by decide)) (Codec.pair_lawful Codec.bool_lawful (Codec.pair_lawful cCode_lawful (Codec.pair_lawful cMem_lawful (Codec.pair_lawful (Codec.bv_lawful (w := 8) (n := 1) (by decide)) cModel_lawful))))))))) _ _ (fun _ => rfl)

theorem cTlbInv_lawful : cTlbInv.Lawful 4 :=
  Codec.map_lawful (Codec.sum_lawful Codec.unit_lawful (Codec.sum_lawful Codec.unit_lawful (Codec.pair_lawful (Codec.bv_lawful (w := 2) (n := 1) (by decide)) (Codec.bv_lawful (w := 2) (n := 1) (by decide))))) _ _ (by intro b; cases b <;> rfl)

theorem cSurf1D_lawful : cSurf1D.Lawful 30 :=
Codec.map_lawful (Codec.pair_lawful (Codec.bv_lawful (w := 64) (n := 8) (by decide)) (Codec.pair_lawful
    (Codec.bv_lawful (w := 32) (n := 4) (by decide)) (Codec.pair_lawful (Codec.bv_lawful (w := 32) (n := 4) (by
    decide)) (Codec.pair_lawful cBpe_lawful (Codec.pair_lawful cTr_lawful (Codec.pair_lawful (Codec.bv_lawful (w
    := 4) (n := 1) (by decide)) (Codec.pair_lawful (Codec.bv_lawful (w := 4) (n := 1) (by decide))
    (Codec.pair_lawful (Codec.bv_lawful (w := 5) (n := 1) (by decide)) (Codec.pair_lawful Codec.bool_lawful
    (Codec.pair_lawful (Codec.bv_lawful (w := 32) (n := 4) (by decide)) (Codec.bv_lawful (w := 32) (n := 4) (by
    decide)))))))))))) _ _ (fun _ => rfl)

theorem cSurfShape_lawful : cSurfShape.Lawful 29 :=
  Codec.pair_lawful (Codec.bv_lawful (w := 64) (n := 8) (by decide)) (Codec.pair_lawful (Codec.bv_lawful (w := 32) (n := 4) (by decide)) (Codec.pair_lawful (Codec.bv_lawful (w := 32) (n := 4) (by decide)) (Codec.pair_lawful (Codec.bv_lawful (w := 32) (n := 4) (by decide)) (Codec.pair_lawful (Codec.bv_lawful (w := 32) (n := 4) (by decide)) (Codec.pair_lawful cTileMode_lawful (Codec.pair_lawful cTr_lawful (Codec.pair_lawful cBpe_lawful (Codec.pair_lawful (Codec.bv_lawful (w := 8) (n := 1) (by decide)) (Codec.bv_lawful (w := 8) (n := 1) (by decide))))))))))

theorem cSurfPos_lawful : cSurfPos.Lawful 33 :=
Codec.pair_lawful (Codec.bv_lawful (w := 16) (n := 2) (by decide)) (Codec.pair_lawful (Codec.bv_lawful (w := 16)
    (n := 2) (by decide)) (Codec.pair_lawful (Codec.bv_lawful (w := 16) (n := 2) (by decide)) (Codec.pair_lawful
    (Codec.bv_lawful (w := 4) (n := 1) (by decide)) (Codec.pair_lawful (Codec.bv_lawful (w := 4) (n := 1) (by
    decide)) (Codec.pair_lawful (Codec.bv_lawful (w := 5) (n := 1) (by decide)) (Codec.pair_lawful
    cSamples_lawful (Codec.pair_lawful Codec.bool_lawful (Codec.pair_lawful Codec.bool_lawful (Codec.pair_lawful
    (Codec.bv_lawful (w := 32) (n := 4) (by decide)) (Codec.pair_lawful (Codec.bv_lawful (w := 32) (n := 4) (by
    decide)) (Codec.pair_lawful (Codec.bv_lawful (w := 32) (n := 4) (by decide)) (Codec.pair_lawful
    (Codec.bv_lawful (w := 32) (n := 4) (by decide)) (Codec.pair_lawful (Codec.bv_lawful (w := 32) (n := 4) (by
    decide)) (Codec.bv_lawful (w := 4) (n := 1) (by decide)))))))))))))))

theorem cSurf2D_lawful : cSurf2D.Lawful 62 :=
  Codec.map_lawful (Codec.pair_lawful cSurfShape_lawful cSurfPos_lawful) _ _ (fun _ => rfl)

theorem cSurfPad_lawful : cSurfPad.Lawful 17 :=
  Codec.map_lawful (Codec.pair_lawful (Codec.bv_lawful (w := 32) (n := 4) (by decide)) (Codec.pair_lawful (Codec.bv_lawful (w := 32) (n := 4) (by decide)) (Codec.pair_lawful (Codec.bv_lawful (w := 16) (n := 2) (by decide)) (Codec.pair_lawful (Codec.bv_lawful (w := 16) (n := 2) (by decide)) (Codec.pair_lawful (Codec.bv_lawful (w := 8) (n := 1) (by decide)) (Codec.pair_lawful cPad_lawful (Codec.pair_lawful Codec.bool_lawful (Codec.pair_lawful Codec.bool_lawful Codec.bool_lawful)))))))) _ _ (fun _ => rfl)

theorem kTile_lawful : kTile.Lawful 20 :=
  Codec.pair_lawful (Codec.bv_lawful (w := 64) (n := 8) (by decide)) (Codec.pair_lawful (Codec.bv_lawful (w := 32) (n := 4) (by decide)) (Codec.pair_lawful (Codec.bv_lawful (w := 32) (n := 4) (by decide)) (Codec.bv_lawful (w := 32) (n := 4) (by decide))))

theorem kFence_lawful : kFence.Lawful 21 :=
  Codec.pair_lawful (Codec.bv_lawful (w := 64) (n := 8) (by decide)) (Codec.pair_lawful (Codec.bv_lawful (w := 64) (n := 8) (by decide)) (Codec.pair_lawful (Codec.bv_lawful (w := 32) (n := 4) (by decide)) cWalkDir_lawful))

theorem kXY_lawful : kXY.Lawful 4 :=
  Codec.pair_lawful (Codec.bv_lawful (w := 16) (n := 2) (by decide)) (Codec.bv_lawful (w := 16) (n := 2) (by decide))

theorem kXYS_lawful : kXYS.Lawful 6 :=
  Codec.pair_lawful (Codec.bv_lawful (w := 16) (n := 2) (by decide)) (Codec.pair_lawful (Codec.bv_lawful (w := 16) (n := 2) (by decide)) (Codec.bv_lawful (w := 16) (n := 2) (by decide)))

theorem kGgtt_lawful : kGgtt.Lawful 11 :=
  Codec.pair_lawful cOptEngine_lawful (Codec.pair_lawful cAcc_lawful (Codec.bv_lawful (w := 64) (n := 8) (by decide)))

theorem kWalk_lawful : kWalk.Lawful 12 :=
  Codec.pair_lawful cEngine_lawful (Codec.pair_lawful cClient_lawful (Codec.pair_lawful (Codec.bv_lawful (w := 6) (n := 1) (by decide)) (Codec.pair_lawful cAcc_lawful (Codec.bv_lawful (w := 64) (n := 8) (by decide)))))

theorem kInv_lawful : kInv.Lawful 18 :=
  Codec.pair_lawful cScope_lawful cStructs_lawful

theorem kR1_lawful : kR1.Lawful 2 :=
  Codec.pair_lawful (Codec.bv_lawful (w := 8) (n := 1) (by decide)) (Codec.bv_lawful (w := 3) (n := 1) (by decide))

theorem kP2_lawful : kP2.Lawful 2 :=
  Codec.pair_lawful (Codec.bv_lawful (w := 8) (n := 1) (by decide)) (Codec.bv_lawful (w := 2) (n := 1) (by decide))

theorem kYuv_lawful : kYuv.Lawful 5 :=
  Codec.pair_lawful cYuv_lawful (Codec.bv_lawful (w := 32) (n := 4) (by decide))

theorem kB64_lawful : kB64.Lawful 10 :=
  Codec.pair_lawful (Codec.bv_lawful (w := 64) (n := 8) (by decide)) cPos_lawful

theorem kB64F_lawful : kB64F.Lawful 11 :=
  Codec.pair_lawful (Codec.bv_lawful (w := 64) (n := 8) (by decide)) (Codec.pair_lawful cPos_lawful Codec.bool_lawful)

theorem kB128_lawful : kB128.Lawful 18 :=
  Codec.pair_lawful (Codec.bv_lawful (w := 128) (n := 16) (by decide)) cPos_lawful

theorem kB128F_lawful : kB128F.Lawful 19 :=
  Codec.pair_lawful (Codec.bv_lawful (w := 128) (n := 16) (by decide)) (Codec.pair_lawful cPos_lawful Codec.bool_lawful)

theorem kFxt_lawful : kFxt.Lawful 17 :=
  Codec.pair_lawful (Codec.bv_lawful (w := 128) (n := 16) (by decide)) (Codec.bv_lawful (w := 5) (n := 1) (by decide))

theorem kAstc_lawful : kAstc.Lawful 21 :=
  Codec.pair_lawful (Codec.bv_lawful (w := 128) (n := 16) (by decide)) (Codec.pair_lawful (Codec.bv_lawful (w := 9) (n := 2) (by decide)) (Codec.pair_lawful (Codec.bv_lawful (w := 4) (n := 1) (by decide)) (Codec.pair_lawful (Codec.bv_lawful (w := 4) (n := 1) (by decide)) (Codec.bv_lawful (w := 4) (n := 1) (by decide)))))

theorem kAstcHead_lawful : kAstcHead.Lawful 21 :=
  Codec.pair_lawful (Codec.bv_lawful (w := 128) (n := 16) (by decide)) (Codec.pair_lawful (Codec.bv_lawful (w := 5) (n := 1) (by decide)) (Codec.bv_lawful (w := 32) (n := 4) (by decide)))

theorem kRaw_lawful : kRaw.Lawful 16 :=
  Codec.pair_lawful (Codec.bv_lawful (w := 64) (n := 8) (by decide)) (Codec.bv_lawful (w := 64) (n := 8) (by decide))

theorem kMcs_lawful : kMcs.Lawful 10 :=
  Codec.pair_lawful cSamples_lawful (Codec.pair_lawful (Codec.bv_lawful (w := 64) (n := 8) (by decide)) (Codec.bv_lawful (w := 4) (n := 1) (by decide)))

theorem kQuilt_lawful : kQuilt.Lawful 20 :=
  Codec.pair_lawful (Codec.bv_lawful (w := 32) (n := 4) (by decide)) (Codec.pair_lawful (Codec.bv_lawful (w := 32) (n := 4) (by decide)) (Codec.pair_lawful (Codec.bv_lawful (w := 32) (n := 4) (by decide)) (Codec.pair_lawful (Codec.bv_lawful (w := 32) (n := 4) (by decide)) (Codec.bv_lawful (w := 32) (n := 4) (by decide)))))

theorem kCube_lawful : kCube.Lawful 5 :=
  Codec.pair_lawful (Codec.bv_lawful (w := 32) (n := 4) (by decide)) (Codec.bv_lawful (w := 3) (n := 1) (by decide))

/-! ### Rows and records -/

theorem all_zero_replicate (k : Nat) : (List.replicate k (0 : Byte)).all (fun b => b == 0) = true := by
  induction k with
  | zero => rfl
  | succ k ih => simp [List.replicate_succ]

/-- Everything reading a row can do with operands that were laid out: the row's operation, if it is well-formed. -/
theorem row_enc {α : Type} {c : Codec α} {n : Nat} (hc : c.Lawful n) (mk : α → Instr) (a : α) (k : Nat)
    (hw : (mk a).check = none) : row c mk (c.enc a ++ List.replicate k 0) = .ok (mk a) := by
  unfold row
  rw [hc.dec_enc]
  dsimp only
  rw [if_pos (all_zero_replicate k)]
  unfold checked
  rw [hw]

theorem length_record {f k : Byte} {p : List Byte} (h : p.length ≤ 62) : (record f k p).length = 64 := by
  simp [record]
  omega

/-- A record is decoded by its family and member, from its operands and the zeros after them. -/
theorem decode_record {f k : Byte} {p : List Byte} (h : p.length ≤ 62) :
    decode (record f k p) = decodeMember f.toNat k.toNat (p ++ List.replicate (62 - p.length) 0) := by
  have hl : (p ++ List.replicate (62 - p.length) (0 : Byte)).length = 62 := by simp; omega
  unfold decode
  rw [if_pos (length_record h)]
  unfold record
  rw [List.take_append_of_le_length (le_of_eq hl.symm), List.take_of_length_le (le_of_eq hl)]
  congr 1
  · rw [List.getD_append_right _ _ _ _ (by omega), hl]
    rfl
  · rw [List.getD_append_right _ _ _ _ (by omega), hl]
    rfl

/-- What `checked` accepts is well-formed. -/
theorem checked_ok {i j : Instr} (h : checked i = .ok j) : j = i ∧ j.WellFormed := by
  unfold checked at h
  split at h
  · rename_i hc
    injection h with h
    subst h
    exact ⟨rfl, hc⟩
  · exact absurd h (by simp)

/-- What a row reads is well-formed. -/
theorem row_ok {α : Type} {c : Codec α} {mk : α → Instr} {p : List Byte} {i : Instr} (h : row c mk p = .ok i) :
    i.WellFormed := by
  unfold row at h
  split at h
  · exact absurd h (by simp)
  · split at h
    · exact (checked_ok h).2
    · exact absurd h (by simp)

end Sys2Proof
end

