-- ==== Sys2Proof/Laws/Coherence.lean ====
section
/-! SUPPORT. Reads and writes as agents see them: with nothing recorded a read gives memory, and a write does to
memory what a plain store does. -/
namespace Sys2Proof.Machine

@[simp] theorem flushCache_mem (s : State) (c : CacheId) : (flushCache s c).mem = s.mem := rfl
@[simp] theorem invalidateCache_mem (s : State) (c : CacheId) : (invalidateCache s c).mem = s.mem := rfl
@[simp] theorem flushLlc_mem (s : State) : (flushLlc s).mem = s.mem := rfl
@[simp] theorem hostFlush_mem (s : State) : (hostFlush s).mem = s.mem := rfl
@[simp] theorem performHeld_mem (s : State) : (performHeld s).mem = s.mem := rfl
@[simp] theorem noteLines_mem (s : State) (w : Agent) (a n : Nat) : (noteLines s w a n).mem = s.mem := rfl
@[simp] theorem noteLines_engines (s : State) (w : Agent) (a n : Nat) : (noteLines s w a n).engines = s.engines := rfl

/-- An access of a type's memory takes the L3 control of the type that it has itself (R745). -/
theorem l3Control_ofAccess (t : MemType) (w : Bool) : (t.ofAccess w).l3Control w = t.l3Control w := by
  cases t <;> cases w <;> rfl

/-- The pieces of a read or write are the whole of it. -/
theorem linePieces_join (fuel a : Nat) (d : List Byte) (h : d.length ≤ fuel) :
    ((linePieces fuel a d).map Prod.snd).flatten = d := by
  induction fuel generalizing a d with
  | zero =>
    have : d = [] := List.eq_nil_of_length_eq_zero (by omega)
    subst this
    rfl
  | succ n ih =>
    unfold linePieces
    split
    · rename_i h0
      rw [h0]
      rfl
    · rename_i h0
      have hp : 0 < d.length := List.length_pos_of_ne_nil h0
      simp only [List.map_cons, List.flatten_cons]
      rw [ih]
      · exact List.take_append_drop _ _
      · rw [List.length_drop]
        omega

theorem viewLines_nothing {s : State} (r : Reader) (ps : List (Nat × List Byte)) (h : s.oldBytes = []) :
    viewLines r ps s = ((ps.map Prod.snd).flatten, s) := by
  induction ps with
  | nil => rfl
  | cons p ps ih =>
    have hf : Prod.fst ∘ (fun b : Byte => (b, false)) = id := rfl
    unfold viewLines
    dsimp only
    rw [h]
    simp only [viewLine]
    rw [ih]
    simp [List.map_map, hf]

/-- With no write recorded, every agent reads memory. -/
theorem loadSeen_nothing {s : State} (r : Reader) (a n : Nat) (h : s.oldBytes = []) :
    loadSeen s r a n = (Memory.readBytes s.mem a n, s) := by
  have hl : (Memory.readBytes s.mem a n).length ≤ n := by
    rw [Memory.length_readBytes]
  unfold loadSeen
  rw [viewLines_nothing r _ h, linePieces_join _ _ _ hl]

end Sys2Proof.Machine
end

