-- ==== Sys2Proof/Laws/State.lean ====
section
/-! SUPPORT. The small lemmas of the state's updates: what each leaves alone, one lemma per field that a proof asks
about, so that no later proof unfolds a record update. -/
namespace Sys2Proof.Machine

/-! ### One value per engine -/

@[simp] theorem PerEngine.get_set_same {α : Type} (p : PerEngine α) (e : Engine) (v : α) : (p.set e v).get e = v := by
  cases e <;> rfl

theorem PerEngine.get_set_other {α : Type} (p : PerEngine α) {e f : Engine} (v : α) (h : e ≠ f) :
    (p.set e v).get f = p.get f := by
  cases e <;> cases f <;> first | rfl | exact absurd rfl h

theorem PerEngine.get_set {α : Type} (p : PerEngine α) (e f : Engine) (v : α) :
    (p.set e v).get f = if e = f then v else p.get f := by
  split
  · rename_i h
    subst h
    exact PerEngine.get_set_same p e v
  · rename_i h
    exact PerEngine.get_set_other p v h

@[simp] theorem PerEngine.get_map {α : Type} (p : PerEngine α) (f : α → α) (e : Engine) :
    (p.map f).get e = f (p.get e) := by
  cases e <;> rfl

@[simp] theorem PerEngine.get_all {α : Type} (v : α) (e : Engine) : (PerEngine.all v).get e = v := by
  cases e <;> rfl

/-! ### Replacing one engine's state -/

@[simp] theorem State.eng_setEng_same (s : State) (e : Engine) (x : EngineState) : (s.setEng e x).eng e = x :=
  PerEngine.get_set_same _ _ _

theorem State.eng_setEng (s : State) (e f : Engine) (x : EngineState) :
    (s.setEng e x).eng f = if e = f then x else s.eng f := PerEngine.get_set _ _ _ _

@[simp] theorem State.setEng_inbox (s : State) (e : Engine) (x : EngineState) : (s.setEng e x).inbox = s.inbox := rfl
@[simp] theorem State.setEng_mem (s : State) (e : Engine) (x : EngineState) : (s.setEng e x).mem = s.mem := rfl
@[simp] theorem State.setEng_par (s : State) (e : Engine) (x : EngineState) : (s.setEng e x).par = s.par := rfl
@[simp] theorem State.setEng_iommu (s : State) (e : Engine) (x : EngineState) : (s.setEng e x).iommu = s.iommu := rfl
@[simp] theorem State.setEng_pasidState (s : State) (e : Engine) (x : EngineState) :
    (s.setEng e x).pasidState = s.pasidState := rfl
@[simp] theorem State.setEng_trtt (s : State) (e : Engine) (x : EngineState) : (s.setEng e x).trtt = s.trtt := rfl
@[simp] theorem State.setEng_pci (s : State) (e : Engine) (x : EngineState) : (s.setEng e x).pci = s.pci := rfl
@[simp] theorem State.setEng_outstanding (s : State) (e : Engine) (x : EngineState) :
    (s.setEng e x).outstanding = s.outstanding := rfl
@[simp] theorem State.setEng_waiting (s : State) (e : Engine) (x : EngineState) :
    (s.setEng e x).waiting = s.waiting := rfl
@[simp] theorem State.setEng_missBlocked (s : State) (e : Engine) (x : EngineState) :
    (s.setEng e x).missBlocked = s.missBlocked := rfl
@[simp] theorem State.setEng_events (s : State) (e : Engine) (x : EngineState) :
    (s.setEng e x).events = s.events := rfl
@[simp] theorem State.setEng_returns (s : State) (e : Engine) (x : EngineState) :
    (s.setEng e x).returns = s.returns := rfl

/-! ### Posting an event -/

@[simp] theorem State.post_inbox (s : State) (d : EventDest) (v : Event) : (s.post d v).inbox = s.inbox := by
  cases d <;> rfl
@[simp] theorem State.post_mem (s : State) (d : EventDest) (v : Event) : (s.post d v).mem = s.mem := by
  cases d <;> rfl
@[simp] theorem State.post_par (s : State) (d : EventDest) (v : Event) : (s.post d v).par = s.par := by
  cases d <;> rfl
@[simp] theorem State.post_engines (s : State) (d : EventDest) (v : Event) : (s.post d v).engines = s.engines := by
  cases d <;> rfl
@[simp] theorem State.post_eng (s : State) (d : EventDest) (v : Event) (e : Engine) : (s.post d v).eng e = s.eng e := by
  cases d <;> rfl
@[simp] theorem State.post_pasidState (s : State) (d : EventDest) (v : Event) :
    (s.post d v).pasidState = s.pasidState := by
  cases d <;> rfl
@[simp] theorem State.post_pci (s : State) (d : EventDest) (v : Event) : (s.post d v).pci = s.pci := by
  cases d <;> rfl
@[simp] theorem State.post_outstanding (s : State) (d : EventDest) (v : Event) :
    (s.post d v).outstanding = s.outstanding := by
  cases d <;> rfl
@[simp] theorem State.post_waiting (s : State) (d : EventDest) (v : Event) : (s.post d v).waiting = s.waiting := by
  cases d <;> rfl
@[simp] theorem State.post_missBlocked (s : State) (d : EventDest) (v : Event) :
    (s.post d v).missBlocked = s.missBlocked := by
  cases d <;> rfl
@[simp] theorem State.post_driver (s : State) (v : Event) :
    (s.post .driver v).events.driver = s.events.driver ++ [v] := rfl
@[simp] theorem State.post_scheduler (s : State) (v : Event) :
    (s.post .scheduler v).events.scheduler = s.events.scheduler ++ [v] := rfl
@[simp] theorem State.post_iommu (s : State) (v : Event) :
    (s.post .iommu v).events.iommu = s.events.iommu ++ [v] := rfl

/-! ### Facts, returns, memory -/

@[simp] theorem State.setFacts_mem (s : State) (who : Option Engine) (fs : List Fact) :
    (s.setFacts who fs).mem = s.mem := by
  cases who <;> rfl
@[simp] theorem State.setFacts_par (s : State) (who : Option Engine) (fs : List Fact) :
    (s.setFacts who fs).par = s.par := by
  cases who <;> rfl
@[simp] theorem State.giveReturn_mem (s : State) (r : ClientReturn) : (s.giveReturn r).mem = s.mem := rfl
@[simp] theorem State.giveReturn_engines (s : State) (r : ClientReturn) : (s.giveReturn r).engines = s.engines := rfl
@[simp] theorem State.giveReturn_par (s : State) (r : ClientReturn) : (s.giveReturn r).par = s.par := rfl
@[simp] theorem State.giveReturn_returns (s : State) (r : ClientReturn) :
    (s.giveReturn r).returns = s.returns ++ [r] := rfl
@[simp] theorem memStore_engines (s : State) (a : Nat) (bs : List Byte) : (memStore s a bs).engines = s.engines := rfl
@[simp] theorem memStore_par (s : State) (a : Nat) (bs : List Byte) : (memStore s a bs).par = s.par := rfl
@[simp] theorem memStore_inbox (s : State) (a : Nat) (bs : List Byte) : (memStore s a bs).inbox = s.inbox := rfl

/-! ### Contexts away from their engine -/

@[simp] theorem noteAway_mem (s : State) (e : Engine) (c : Ctx) : (noteAway s e c).mem = s.mem := by
  unfold noteAway
  split <;> rfl
@[simp] theorem noteAway_par (s : State) (e : Engine) (c : Ctx) : (noteAway s e c).par = s.par := by
  unfold noteAway
  split <;> rfl
@[simp] theorem noteAway_engines (s : State) (e : Engine) (c : Ctx) : (noteAway s e c).engines = s.engines := by
  unfold noteAway
  split <;> rfl
@[simp] theorem noteAway_inbox (s : State) (e : Engine) (c : Ctx) : (noteAway s e c).inbox = s.inbox := by
  unfold noteAway
  split <;> rfl
@[simp] theorem noteAway_outstanding (s : State) (e : Engine) (c : Ctx) : (noteAway s e c).outstanding = s.outstanding := by
  unfold noteAway
  split <;> rfl
@[simp] theorem noteAway_waiting (s : State) (e : Engine) (c : Ctx) : (noteAway s e c).waiting = s.waiting := by
  unfold noteAway
  split <;> rfl
@[simp] theorem noteAway_pasidState (s : State) (e : Engine) (c : Ctx) : (noteAway s e c).pasidState = s.pasidState := by
  unfold noteAway
  split <;> rfl
@[simp] theorem noteAway_events (s : State) (e : Engine) (c : Ctx) : (noteAway s e c).events = s.events := by
  unfold noteAway
  split <;> rfl
@[simp] theorem noteAway_missBlocked (s : State) (e : Engine) (c : Ctx) : (noteAway s e c).missBlocked = s.missBlocked := by
  unfold noteAway
  split <;> rfl
@[simp] theorem noteAway_eng (s : State) (e f : Engine) (c : Ctx) : (noteAway s e c).eng f = s.eng f := by
  unfold noteAway
  split <;> rfl

/-- An advanced context that leaves an engine is away, once. -/
theorem noteAway_away (s : State) (e : Engine) (c : Ctx) (h : c.advanced = true) :
    (noteAway s e c).awayContexts =
      ⟨e, c.pasid, c.contextID⟩ :: s.awayContexts.filter (fun x => x.contextID != c.contextID) := by
  simp [noteAway, h]

/-- Drawing arbitrary bytes only moves the counter. -/
theorem freeBytes_state (s : State) (n : Nat) : (freeBytes s n).2 = { s with freeCount := s.freeCount + n } := by
  induction n generalizing s with
  | zero => rfl
  | succ n ih =>
    simp only [freeBytes, ih]
    congr 1
    omega

theorem freeBytes_length (s : State) (n : Nat) : (freeBytes s n).1.length = n := by
  induction n generalizing s with
  | zero => rfl
  | succ n ih => simp [freeBytes, ih]

theorem freeQ_state (s : State) : (freeQ s).2 = { s with freeCount := s.freeCount + 8 } := freeBytes_state s 8

end Sys2Proof.Machine
end

