-- ==== Sys2Proof/Laws/Frame.lean ====
section
/-! SUPPORT. What translating and performing accesses can change: `Keeps s t`, one lemma per shared operation. No
operation and no access changes a register, a context's identity, `PASID_State`, the fences, the palette or the inbox;
none breaks the canonical form of memory; none starts a context delivery. -/
namespace Sys2Proof.Machine

/-- The part of the state that no operation and no access changes, with the rest blanked. -/
def State.core (s : State) : State :=
  { s with
    mem := []
    oldBytes := []
    cachedLines := []
    engines := .all .reset
    sharedFacts := []
    nullTileCount := 0
    walkerCtl := none
    outstanding := []
    nextPrg := 0
    missBlocked := none
    waiting := []
    hdcPorts := []
    hdcQueue := []
    miniTlb := []
    hdcResponses := []
    hdcInvalidating := false
    hdcAcks := []
    events := .empty
    returns := []
    out := .none
    freeCount := 0 }

/-- What identifies a resident context. -/
def Ctx.ident (c : Ctx) : Bool × BitVec 20 × BitVec 32 := (c.advanced, c.pasid, c.contextID)

/-- What an access keeps of an engine: the identity of its context, its descriptor registers, a pending reset; and it
does not put the engine into a delivery. -/
structure EngKeeps (x y : EngineState) : Prop where
  ctx : y.ctx.map Ctx.ident = x.ctx.map Ctx.ident
  run : y.run = .switching → x.run = .switching
  desc : y.desc = x.desc
  pend : y.resetPending = x.resetPending

/-- What every operation and every access keeps. -/
structure Keeps (s t : State) : Prop where
  core : t.core = s.core
  mem : Memory.wf s.mem = true → Memory.wf t.mem = true
  eng : ∀ e, EngKeeps (s.eng e) (t.eng e)

theorem EngKeeps.refl (x : EngineState) : EngKeeps x x := ⟨rfl, id, rfl, rfl⟩

theorem EngKeeps.trans {x y z : EngineState} (h : EngKeeps x y) (k : EngKeeps y z) : EngKeeps x z :=
  ⟨k.ctx.trans h.ctx, fun r => h.run (k.run r), k.desc.trans h.desc, k.pend.trans h.pend⟩

theorem Keeps.refl (s : State) : Keeps s s := ⟨rfl, id, fun _ => .refl _⟩

theorem Keeps.trans {s t u : State} (h : Keeps s t) (k : Keeps t u) : Keeps s u :=
  ⟨k.core.trans h.core, fun m => k.mem (h.mem m), fun e => (h.eng e).trans (k.eng e)⟩

/-- An update of nothing but blanked fields that are neither memory nor engines. -/
theorem Keeps.of_same {s t : State} (hc : t.core = s.core) (hm : t.mem = s.mem) (he : t.engines = s.engines) :
    Keeps s t := ⟨hc, fun h => hm ▸ h, fun e => by unfold State.eng; rw [he]; exact .refl _⟩

/-- Continue a chain by such an update. -/
theorem Keeps.then_same {s t u : State} (h : Keeps s t) (hc : u.core = t.core) (hm : u.mem = t.mem)
    (he : u.engines = t.engines) : Keeps s u := h.trans (.of_same hc hm he)

/-! ### What the kept part says -/

theorem Keeps.inbox {s t : State} (h : Keeps s t) : t.inbox = s.inbox := by
  have k := congrArg State.inbox h.core
  exact k
theorem Keeps.par {s t : State} (h : Keeps s t) : t.par = s.par := by
  have k := congrArg State.par h.core
  exact k
theorem Keeps.pasidState {s t : State} (h : Keeps s t) : t.pasidState = s.pasidState := by
  have k := congrArg State.pasidState h.core
  exact k
theorem Keeps.trtt {s t : State} (h : Keeps s t) : t.trtt = s.trtt := by
  have k := congrArg State.trtt h.core
  exact k
theorem Keeps.trttSaved {s t : State} (h : Keeps s t) : t.trttSaved = s.trttSaved := by
  have k := congrArg State.trttSaved h.core
  exact k
theorem Keeps.mocsSaved {s t : State} (h : Keeps s t) : t.mocsSaved = s.mocsSaved := by
  have k := congrArg State.mocsSaved h.core
  exact k
theorem Keeps.mchbar {s t : State} (h : Keeps s t) : t.mchbar = s.mchbar := by
  have k := congrArg State.mchbar h.core
  exact k
theorem Keeps.l3Saved {s t : State} (h : Keeps s t) : t.l3Saved = s.l3Saved := by
  have k := congrArg State.l3Saved h.core
  exact k
theorem Keeps.badContexts {s t : State} (h : Keeps s t) : t.badContexts = s.badContexts := by
  have k := congrArg State.badContexts h.core
  exact k
theorem Keeps.awayContexts {s t : State} (h : Keeps s t) : t.awayContexts = s.awayContexts := by
  have k := congrArg State.awayContexts h.core
  exact k
theorem Keeps.l3Control {s t : State} (h : Keeps s t) : t.l3Control = s.l3Control := by
  have k := congrArg State.l3Control h.core
  exact k
theorem Keeps.gamt {s t : State} (h : Keeps s t) : t.gamt = s.gamt := by
  have k := congrArg State.gamt h.core
  exact k
theorem Keeps.fences {s t : State} (h : Keeps s t) : t.fences = s.fences := by
  have k := congrArg State.fences h.core
  exact k
theorem Keeps.pci {s t : State} (h : Keeps s t) : t.pci = s.pci := by
  have k := congrArg State.pci h.core
  exact k
theorem Keeps.palette {s t : State} (h : Keeps s t) : t.palette = s.palette := by
  have k := congrArg State.palette h.core
  exact k

/-! ### Engines -/

theorem setEng_keeps {s : State} {e : Engine} {x : EngineState} (h : EngKeeps (s.eng e) x) : Keeps s (s.setEng e x) where
  core := rfl
  mem := id
  eng f := by
    rw [State.eng_setEng]
    split
    · rename_i hf
      subst hf
      exact h
    · exact .refl _

theorem setFacts_keeps (s : State) (who : Option Engine) (fs : List Fact) : Keeps s (s.setFacts who fs) := by
  cases who with
  | none => exact .of_same rfl rfl rfl
  | some e => exact setEng_keeps ⟨rfl, id, rfl, rfl⟩

theorem freeChoice_keeps (s : State) : Keeps s (freeChoice s).2 := .of_same rfl rfl rfl

theorem freeBytes_keeps (s : State) (n : Nat) : Keeps s (freeBytes s n).2 := by
  rw [freeBytes_state]
  exact .of_same rfl rfl rfl

theorem freeQ_keeps (s : State) : Keeps s (freeQ s).2 := freeBytes_keeps s 8

/-- Making room in a TLB removes facts only. -/
theorem makeRoom_keeps (s : State) (who : Option Engine) (k : TlbId) : Keeps s (makeRoom s who k) := by
  unfold makeRoom
  dsimp only
  split
  · exact .refl _
  · exact (freeQ_keeps s).trans (setFacts_keeps _ _ _)

theorem remember_keeps (s : State) (who : Option Engine) (f : Fact) : Keeps s (remember s who f) := by
  unfold remember
  dsimp only
  split
  · exact (makeRoom_keeps s who _).trans (setFacts_keeps _ _ _)
  · exact setFacts_keeps _ _ _

theorem dropFact_keeps (s : State) (who : Option Engine) (f : Fact) : Keeps s (dropFact s who f) :=
  setFacts_keeps _ _ _

theorem rememberLine_keeps (s : State) (who : Option Engine) (a n : Nat) : Keeps s (rememberLine s who a n) := by
  induction n generalizing s with
  | zero => exact .refl _
  | succ n ih =>
    exact (remember_keeps _ _ _).trans (ih _)

theorem rememberEntries_keeps (s : State) (who : Option Engine) (as : List Nat) :
    Keeps s (rememberEntries s who as) := by
  induction as generalizing s with
  | nil => exact .refl _
  | cons a as ih => exact (remember_keeps _ _ _).trans (ih _)

theorem fillPml4_keeps (s : State) (who : Option Engine) (a : Nat) (v : QWord) : Keeps s (fillPml4 s who a v) := by
  unfold fillPml4
  split
  · split
    · exact remember_keeps _ _ _
    · exact .refl _
  · exact rememberEntries_keeps _ _ _

theorem fillEntry_keeps (s : State) (who : Option Engine) (a : Nat) (k : EntryKind) (v : QWord) :
    Keeps s (fillEntry s who a k v) := by
  unfold fillEntry
  split
  · split
    · exact rememberLine_keeps _ _ _ _
    · exact .refl _
  · exact fillPml4_keeps _ _ _ _
  all_goals
    split
    · exact remember_keeps _ _ _
    · exact .refl _

theorem memStore_keeps (s : State) (a : Nat) (bs : List Byte) : Keeps s (memStore s a bs) :=
  ⟨rfl, fun h => memStore_wf a bs h, fun _ => .refl _⟩

theorem storeSeen_keeps (s : State) (w : WriteVia) (a : Nat) (d : List Byte) : Keeps s (storeSeen s w a d) :=
  (memStore_keeps s a d).then_same rfl rfl rfl

theorem memWriteQ_keeps (s : State) (a : Nat) (v : QWord) : Keeps s (memWriteQ s a v) := storeSeen_keeps _ _ _ _

theorem atomicRmwQ_keeps (s : State) (a : Nat) (f : QWord → QWord) : Keeps s (atomicRmwQ s a f).2 := by
  unfold atomicRmwQ
  dsimp only
  split
  · exact .refl _
  · exact memWriteQ_keeps _ _ _

theorem post_keeps (s : State) (d : EventDest) (v : Event) : Keeps s (s.post d v) := by
  cases d <;> exact .of_same rfl rfl rfl

theorem giveReturn_keeps (s : State) (r : ClientReturn) : Keeps s (s.giveReturn r) := .of_same rfl rfl rfl

/-- A run state other than a delivery. -/
theorem setRun_keeps (s : State) (e : Engine) {r : RunState} (h : r ≠ .switching) : Keeps s (s.setRun e r) :=
  setEng_keeps ⟨rfl, fun k => absurd k h, rfl, rfl⟩

/-! ### Paging entries and walks -/

theorem readEntryPlain_keeps (s : State) (src : WalkSrc) (who : Option Engine) (a : Nat) (k : EntryKind) :
    Keeps s (readEntryPlain s src who a k).2 := by
  cases src with
  | memory => exact .refl _
  | held => exact .refl _
  | caches =>
    simp only [readEntryPlain]
    split
    · split
      · exact freeChoice_keeps s
      · exact ((freeChoice_keeps s).trans (dropFact_keeps _ _ _)).trans (fillEntry_keeps _ _ _ _ _)
    · exact fillEntry_keeps _ _ _ _ _

theorem readEntryAD_keeps (s : State) (src : WalkSrc) (who : Option Engine) (q : RightsCtl) (p a : Nat) (i : Bool) :
    Keeps s (readEntryAD s src who q p a i).2 := by
  unfold readEntryAD
  split
  · exact .refl _
  · dsimp only
    split
    · exact (atomicRmwQ_keeps _ _ _).trans (remember_keeps _ _ _)
    · exact atomicRmwQ_keeps _ _ _

theorem readEntryIa_keeps (s : State) (src : WalkSrc) (who : Option Engine) (c : Ctx) (q : RightsCtl) (p a : Nat)
    (k : EntryKind) : Keeps s (readEntryIa s src who c q p a k).2 := by
  unfold readEntryIa
  split
  · dsimp only
    split
    · split
      · exact freeChoice_keeps s
      · exact ((freeChoice_keeps s).trans (dropFact_keeps _ _ _)).trans (readEntryAD_keeps _ _ _ _ _ _ _)
    · exact .refl _
    all_goals exact readEntryAD_keeps _ _ _ _ _ _ _
  · exact readEntryPlain_keeps _ _ _ _ _

theorem ggttWalk_keeps (s : State) (src : WalkSrc) (who : Option Engine) (va : Nat) :
    Keeps s (ggttWalk s src who va).2 := by
  unfold ggttWalk
  split
  · exact .refl _
  · split
    · exact .refl _
    · dsimp only
      split <;> exact readEntryPlain_keeps _ _ _ _ _

theorem legacyPt_keeps (s : State) (src : WalkSrc) (who : Option Engine) (c : Ctx) (p : QWord) (va : Nat) (a : Acc) :
    Keeps s (legacyPt s src who c p va a).2 := by
  unfold legacyPt
  dsimp only
  split
  · split <;> exact readEntryPlain_keeps _ _ _ _ _
  · split <;> exact readEntryPlain_keeps _ _ _ _ _

theorem ppgtt32Walk_keeps (s : State) (src : WalkSrc) (who : Option Engine) (c : Ctx) (va : Nat) (a : Acc) :
    Keeps s (ppgtt32Walk s src who c va a).2 := by
  unfold ppgtt32Walk
  split
  · exact .refl _
  · dsimp only
    split
    · exact readEntryPlain_keeps _ _ _ _ _
    · exact (readEntryPlain_keeps _ _ _ _ _).trans (legacyPt_keeps _ _ _ _ _ _ _)

theorem legacy48Pd_keeps (s : State) (src : WalkSrc) (who : Option Engine) (c : Ctx) (p : QWord) (va : Nat) (a : Acc) :
    Keeps s (legacy48Pd s src who c p va a).2 := by
  unfold legacy48Pd
  dsimp only
  split
  · exact readEntryPlain_keeps _ _ _ _ _
  · split
    · split <;> exact readEntryPlain_keeps _ _ _ _ _
    · exact (readEntryPlain_keeps _ _ _ _ _).trans (legacyPt_keeps _ _ _ _ _ _ _)

theorem legacy48Pdp_keeps (s : State) (src : WalkSrc) (who : Option Engine) (c : Ctx) (p : QWord) (va : Nat)
    (a : Acc) : Keeps s (legacy48Pdp s src who c p va a).2 := by
  unfold legacy48Pdp
  dsimp only
  split
  · exact readEntryPlain_keeps _ _ _ _ _
  · split
    · split <;> exact readEntryPlain_keeps _ _ _ _ _
    · exact (readEntryPlain_keeps _ _ _ _ _).trans (legacy48Pd_keeps _ _ _ _ _ _ _)

theorem ppgtt48Walk_keeps (s : State) (src : WalkSrc) (who : Option Engine) (c : Ctx) (va : Nat) (a : Acc) :
    Keeps s (ppgtt48Walk s src who c va a).2 := by
  unfold ppgtt48Walk
  split
  · exact .refl _
  · dsimp only
    split
    · exact readEntryPlain_keeps _ _ _ _ _
    · exact (readEntryPlain_keeps _ _ _ _ _).trans (legacy48Pdp_keeps _ _ _ _ _ _ _)

theorem iaPt_keeps (s : State) (src : WalkSrc) (who : Option Engine) (c : Ctx) (q : RightsCtl) (r : Rights) (p : QWord)
    (va : Nat) : Keeps s (iaPt s src who c q r p va).2 := by
  unfold iaPt
  dsimp only
  split
  · rename_i h
    exact (congrArg Prod.snd h) ▸ readEntryIa_keeps s src who c q _ _ _
  · rename_i h
    have k : Keeps s _ := (congrArg Prod.snd h) ▸ readEntryIa_keeps s src who c q _ _ _
    repeat' split
    all_goals exact k

theorem iaPd_keeps (s : State) (src : WalkSrc) (who : Option Engine) (c : Ctx) (q : RightsCtl) (r : Rights) (p : QWord)
    (va : Nat) : Keeps s (iaPd s src who c q r p va).2 := by
  unfold iaPd
  dsimp only
  split
  · rename_i h
    exact (congrArg Prod.snd h) ▸ readEntryIa_keeps s src who c q _ _ _
  · rename_i h
    have k := (congrArg Prod.snd h) ▸ readEntryIa_keeps s src who c q _ _ _
    split
    · split <;> exact k
    · split
      · exact k
      · exact k.trans (iaPt_keeps _ _ _ _ _ _ _ _)

theorem iaPdp_keeps (s : State) (src : WalkSrc) (who : Option Engine) (c : Ctx) (q : RightsCtl) (r : Rights)
    (p : QWord) (va : Nat) : Keeps s (iaPdp s src who c q r p va).2 := by
  unfold iaPdp
  dsimp only
  split
  · rename_i h
    exact (congrArg Prod.snd h) ▸ readEntryIa_keeps s src who c q _ _ _
  · rename_i h
    have k := (congrArg Prod.snd h) ▸ readEntryIa_keeps s src who c q _ _ _
    split
    · split <;> exact k
    · split
      · exact k
      · exact k.trans (iaPd_keeps _ _ _ _ _ _ _ _)

theorem ia32eWalk_keeps (s : State) (src : WalkSrc) (who : Option Engine) (c : Ctx) (va : Nat) (a : Acc) :
    Keeps s (ia32eWalk s src who c va a).2 := by
  unfold ia32eWalk
  split
  · exact .refl _
  · split
    · exact .refl _
    · dsimp only
      split
      · rename_i h
        exact (congrArg Prod.snd h) ▸ readEntryIa_keeps s src who c _ _ _ _
      · rename_i h
        have k := (congrArg Prod.snd h) ▸ readEntryIa_keeps s src who c _ _ _ _
        split
        · exact k
        · exact k.trans (iaPdp_keeps _ _ _ _ _ _ _ _)

/-- The walk of any mode. -/
theorem walkMode_keeps (s : State) (src : WalkSrc) (who : Option Engine) (c : Ctx) (m : Mode) (va : Nat) (a : Acc) :
    Keeps s (walkMode s src who c m va a).2 := by
  cases m
  · exact ggttWalk_keeps _ _ _ _
  · exact ppgtt32Walk_keeps _ _ _ _ _ _
  · exact ppgtt48Walk_keeps _ _ _ _ _ _
  · exact ia32eWalk_keeps _ _ _ _ _ _

/-! ### Taking faults -/

theorem needReset_keeps (s : State) (e : Engine) : Keeps s (needReset s e) := setEng_keeps ⟨rfl, id, rfl, rfl⟩

theorem loseTable_keeps (s : State) (e : Engine) : Keeps s (loseTable s e) := setEng_keeps ⟨rfl, id, rfl, rfl⟩

theorem dropPath_keeps (s : State) (who : Option Engine) (ps : List Nat) : Keeps s (dropPath s who ps) :=
  setFacts_keeps _ _ _

theorem markBad_keeps (s : State) (e : Engine) : Keeps s (markBad s e) := by
  unfold markBad
  split
  · exact .refl _
  · rename_i c h
    exact setEng_keeps ⟨by rw [h]; rfl, id, rfl, rfl⟩

theorem takeCatastrophic_keeps (s : State) (e : Engine) (k : ErrorKind) : Keeps s (takeCatastrophic s e k) := by
  unfold takeCatastrophic
  split
  · exact .refl _
  · exact (((markBad_keeps s e).trans (needReset_keeps _ _)).trans (post_keeps _ _ _)).trans (post_keeps _ _ _)

theorem hdcFaultResponse_keeps (s : State) (r : HdcReq) (c : FaultCode) (m : FaultModel) :
    Keeps s (hdcFaultResponse s r c m).2 :=
  ((freeBytes_keeps s 4).trans (freeChoice_keeps _)).trans (freeBytes_keeps _ 1)

theorem sendHdcResponse_keeps (s : State) (r : HdcResp) : Keeps s (sendHdcResponse s r) := by
  unfold sendHdcResponse
  split <;> exact .of_same rfl rfl rfl

/-- An invalid access changes no memory and no register. -/
theorem completeInvalid_keeps (s : State) (p : Pending) : Keeps s (completeInvalid s p) := by
  cases p with
  | access a => exact (freeBytes_keeps s _).trans (giveReturn_keeps _ _)
  | hdc q => exact (hdcFaultResponse_keeps s q _ _).trans (sendHdcResponse_keeps _ _)
  | walk => exact .of_same rfl rfl rfl
  | trtt => exact .of_same rfl rfl rfl
  | aux => exact .of_same rfl rfl rfl
  | available => exact .refl _
  | switchOut => exact .refl _

theorem issueRequest_keeps (s : State) (r : PageRequest) : Keeps s (issueRequest s r) := by
  refine Keeps.trans ?_ (post_keeps _ _ _)
  exact .of_same rfl rfl rfl

theorem sendPageRequest_keeps (s : State) (e : Engine) (c : Ctx) (k : Client) (f : PageFault) (m : FaultModel) :
    Keeps s (sendPageRequest s e c k f m) :=
  (issueRequest_keeps s _).trans (remember_keeps _ _ _)

/-- Taking fault and hang. -/
theorem takeHang_keeps (s : State) (e : Engine) (f : PageFault) (p : Pending) : Keeps s (takeHang s e f p) :=
  (((needReset_keeps s e).trans (setRun_keeps _ e (by simp))).trans (post_keeps _ _ _)).then_same rfl rfl rfl

theorem dropPage_keeps (s : State) (e : Engine) (k : Client) (g : Bool) (va : Nat) : Keeps s (dropPage s e k g va) := by
  unfold dropPage
  dsimp only
  split
  · exact (setFacts_keeps s (some e) _).then_same rfl rfl rfl
  · exact setFacts_keeps s (some e) _

/-- Taking fault and halt. -/
theorem takeHalt_keeps (s : State) (e : Engine) (c : Ctx) (k : Client) (f : PageFault) (l : Option Nat) (p : Pending) :
    Keeps s (takeHalt s e c k f l p) :=
  (((dropPage_keeps s e k f.ggtt f.va).trans (sendPageRequest_keeps _ e c k f .halt)).trans
    (setRun_keeps _ e (by simp))).then_same rfl rfl rfl

theorem returnFaultCode_keeps (s : State) (f : PageFault) (m : FaultModel) (p : Pending) :
    Keeps s (returnFaultCode s f m p) := by
  cases p with
  | access a => exact (freeBytes_keeps s _).trans (giveReturn_keeps _ _)
  | hdc q => exact (hdcFaultResponse_keeps s q _ _).trans (sendHdcResponse_keeps _ _)
  | walk => exact .of_same rfl rfl rfl
  | trtt => exact .of_same rfl rfl rfl
  | aux => exact .of_same rfl rfl rfl
  | available => exact .refl _
  | switchOut => exact .refl _

/-- Taking fault and stream. -/
theorem takeStream_keeps (s : State) (e : Engine) (c : Ctx) (k : Client) (f : PageFault) (p : Pending) :
    Keeps s (takeStream s e c k f p) := by
  unfold takeStream
  dsimp only
  have h := ((returnFaultCode_keeps s f .stream p).trans (sendPageRequest_keeps _ e c k f .stream)).trans
    (setEng_keeps (e := e)
      (x := { (sendPageRequest (returnFaultCode s f .stream p) e c k f .stream).eng e with
              streamFaultCount :=
                ((sendPageRequest (returnFaultCode s f .stream p) e c k f .stream).eng e).streamFaultCount + 1 })
      ⟨rfl, id, rfl, rfl⟩)
  split
  · exact h.trans (post_keeps _ _ _)
  · exact h

/-- Taking a page fault, under whichever model. -/
theorem takePageFault_keeps {s t : State} {f : PageFault} {k : Client} {m : Option (BitVec 6)} {p : Pending}
    (h : takePageFault s f k m p = .ok t) : Keeps s t := by
  unfold takePageFault at h
  have hcat : ∀ e, Keeps s (completeInvalid
      { takeCatastrophic s e .pageRequestDisabled with out := .error .pageRequestDisabled } p) := fun e => by
    refine Keeps.trans ?_ (completeInvalid_keeps _ p)
    exact (takeCatastrophic_keeps s e .pageRequestDisabled).then_same rfl rfl rfl
  split at h
  · injection h with h
    exact h ▸ completeInvalid_keeps s p
  · split at h
    · injection h with h
      exact h ▸ takeHang_keeps _ _ _ _
    · split at h
      · exact absurd h (by simp)
      · split at h
        · exact absurd h (by simp)
        · injection h with h
          exact h ▸ takeHang_keeps _ _ _ _
        · split at h
          · injection h with h
            exact h ▸ takeHalt_keeps _ _ _ _ _ _ _
          · injection h with h
            exact h ▸ hcat _
        · split at h
          · injection h with h
            exact h ▸ takeStream_keeps _ _ _ _ _ _
          · injection h with h
            exact h ▸ hcat _

theorem takeTableFault_keeps (s : State) (c : Ctx) (f : PageFault) : Keeps s (takeTableFault s c f) := by
  unfold takeTableFault
  dsimp only
  split
  · exact (loseTable_keeps s .render).trans (takeCatastrophic_keeps _ _ _)
  · exact ((loseTable_keeps s .render).trans (setRun_keeps _ _ (by simp))).trans (post_keeps _ _ _)

/-! ### What agents see of memory -/

theorem viewLine_keeps (r : Reader) (x : Nat) (os : List OldBytes) (bs : List (Byte × Bool)) (s : State) :
    Keeps s (viewLine r x os bs s).2 := by
  induction os generalizing bs s with
  | nil => exact .refl _
  | cons o os ih =>
    unfold viewLine
    split
    · split
      · exact (freeChoice_keeps s).trans (ih _ _)
      · exact ih _ _
    · exact ih _ _

theorem viewLines_keeps (r : Reader) (ps : List (Nat × List Byte)) (s : State) : Keeps s (viewLines r ps s).2 := by
  induction ps generalizing s with
  | nil => exact .refl _
  | cons p ps ih => exact (viewLine_keeps r p.1 _ _ s).trans (ih _)

/-- A read, as any agent sees memory. -/
theorem loadSeen_keeps (s : State) (r : Reader) (a n : Nat) : Keeps s (loadSeen s r a n).2 := viewLines_keeps _ _ _

theorem noteLines_keeps (s : State) (w : Agent) (a n : Nat) : Keeps s (noteLines s w a n) := .of_same rfl rfl rfl

theorem noteCached_keeps (s : State) (r : Reader) (a n : Nat) : Keeps s (noteCached s r a n) := by
  unfold noteCached
  split
  · exact .refl _
  · exact .refl _
  · exact .refl _
  · split
    · exact .refl _
    · exact noteLines_keeps _ _ _ _

/-! ### Translation -/

theorem tlbLookup_keeps (s : State) (who : Option Engine) (k : TlbId) (c : Option Ctx) (g : Bool) (va : Nat) (a : Acc) :
    Keeps s (tlbLookup s who k c g va a).2 := by
  unfold tlbLookup
  split
  · exact .refl _
  · dsimp only
    generalize (if g = true then none else c) = c'
    split
    · exact freeChoice_keeps s
    · exact (freeChoice_keeps s).trans (dropFact_keeps _ _ _)

theorem walkCaches_keeps (s : State) (who : Option Engine) (cx : Ctx) (m : Mode) (va : Nat) (a : Acc) :
    Keeps s (walkCaches s who cx m va a).2 := by
  unfold walkCaches
  have k := walkMode_keeps s .caches who cx m va a
  dsimp only
  split
  · have k2 := (k.trans (dropPath_keeps _ who
        (walkPath s who cx m va ++ walkPath (walkMode s .caches who cx m va a).2 who cx m va))).trans (freeChoice_keeps _)
    split
    · exact k2.trans (walkMode_keeps _ _ _ _ _ _ _)
    · exact k2
  · exact k
  · exact k
  · exact k

theorem walkFrom_keeps (s : State) (src : WalkSrc) (who : Option Engine) (cx : Ctx) (m : Mode) (va : Nat) (a : Acc) :
    Keeps s (walkFrom s src who cx m va a).2 := by
  cases src
  · exact walkMode_keeps _ _ _ _ _ _ _
  · exact walkCaches_keeps _ _ _ _ _ _
  · exact walkMode_keeps _ _ _ _ _ _ _

theorem fillTlb_keeps {s : State} {r : WalkRes × State} (k : Keeps s r.2) (src : WalkSrc) (who : Option Engine)
    (cl : Client) (c : Option Ctx) (g : Bool) (va : Nat) (a : Acc) : Keeps s (fillTlb r src who cl c g va a).2 := by
  unfold fillTlb
  split
  · dsimp only
    split
    · split
      · exact k
      · exact k.trans (remember_keeps _ _ _)
    · exact k
  · exact k
  · exact k
  · exact k

theorem walkAndFill_keeps (s : State) (src : WalkSrc) (who : Option Engine) (cl : Client) (c : Option Ctx) (cx : Ctx)
    (m : Mode) (va : Nat) (a : Acc) : Keeps s (walkAndFill s src who cl c cx m va a).2 :=
  fillTlb_keeps (walkFrom_keeps _ _ _ _ _ _ _) _ _ _ _ _ _ _

theorem faultedLookup_keeps (s : State) (who : Option Engine) (cx : Ctx) (va : Nat) (a : Acc) :
    Keeps s (faultedLookup s who cx va a).2 := by
  unfold faultedLookup
  split
  · exact .refl _
  · dsimp only
    split
    · exact freeChoice_keeps s
    · exact (freeChoice_keeps s).trans (dropFact_keeps _ _ _)

theorem missWalk_keeps (s : State) (who : Option Engine) (cl : Client) (c : Option Ctx) (cx : Ctx) (m : Mode) (va : Nat)
    (a : Acc) : Keeps s (missWalk s who cl c cx m va a).2 := by
  unfold missWalk
  split
  · dsimp only
    split
    · exact (freeChoice_keeps s).trans (walkAndFill_keeps _ _ _ _ _ _ _ _ _)
    · exact freeChoice_keeps s
  · exact walkAndFill_keeps _ _ _ _ _ _ _ _ _

/-- Stage 2 of a translation. -/
theorem stage2_keeps (s : State) (cached : Bool) (who : Option Engine) (cl : Client) (c : Option Ctx) (m : Mode)
    (va : Nat) (a : Acc) : Keeps s (stage2 s cached who cl c m va a).2 := by
  unfold stage2
  dsimp only
  split
  · split
    · exact .refl _
    have k := tlbLookup_keeps s who (tlbOf who cl) c (m == .ggtt) va a
    split <;> rename_i h <;> rw [h] at k
    · exact k
    · have k2 : ∀ s1, Keeps s1 (if (m == Mode.ggtt) = true then ((none : Option FaultCode), s1)
          else faultedLookup s1 who (c.getD noCtx) va a).2 := by
        intro s1
        split
        · exact .refl _
        · exact faultedLookup_keeps _ _ _ _ _
      rename_i s1
      have k3 := k.trans (k2 s1)
      split <;> rename_i h2 <;> rw [h2] at k3
      · exact k3
      · exact k3.trans (missWalk_keeps _ _ _ _ _ _ _ _)
  · exact walkAndFill_keeps _ _ _ _ _ _ _ _ _

theorem tableReadLost_keeps (s : State) : Keeps s (tableReadLost s).2 :=
  (loseTable_keeps s .render).trans (freeQ_keeps _)

theorem tableReadAt_keeps (s : State) (cached : Bool) (c : Ctx) (va n pa : Nat) (pat pcd pwt : Bool) :
    Keeps s (tableReadAt s cached c va n pa pat pcd pwt).2 := by
  unfold tableReadAt
  dsimp only
  generalize memoryControls s (some .render) c.advanced .other (some 62) false pat pcd pwt pa = ctl
  have k : Keeps s (loadSeen { s with walkerCtl := some ctl, freeCount := s.freeCount + 1 }
      { agent := .walker, coherent := true, snoops := ctl.llcCoherent false } pa n).2 := by
    refine Keeps.trans ?_ (loadSeen_keeps _ _ _ _)
    exact .of_same rfl rfl rfl
  split
  · exact k.trans (remember_keeps _ _ _)
  · exact k

theorem tableReadMem_keeps (s : State) (cached : Bool) (c : Ctx) (m : Mode) (va n : Nat) :
    Keeps s (tableReadMem s cached c m va n).2 := by
  unfold tableReadMem
  have k := stage2_keeps s cached (some .render) .other (some c) m va .read
  split <;> rename_i h <;> rw [h] at k <;> dsimp only at k ⊢
  · split
    · exact k.trans (tableReadAt_keeps _ _ _ _ _ _ _ _ _)
    · exact k
  · exact k
  · split
    · exact k
    · exact (k.trans (takeTableFault_keeps _ _ _)).trans (tableReadLost_keeps _)
  · exact (k.trans (takeCatastrophic_keeps _ _ _)).trans (tableReadLost_keeps _)
  · exact k
  · exact k
  · exact k

theorem tableRead_keeps (s : State) (cached failed spurious : Bool) (c : Ctx) (m : Mode) (va n : Nat) :
    Keeps s (tableRead s cached failed spurious c m va n).2 := by
  unfold tableRead
  split
  · exact tableReadLost_keeps s
  · split
    · exact .refl _
    · split
      · split
        · dsimp only
          split
          · exact freeChoice_keeps s
          · exact ((freeChoice_keeps s).trans (dropFact_keeps _ _ _)).trans (tableReadMem_keeps _ _ _ _ _ _)
        · exact tableReadMem_keeps _ _ _ _ _ _
      · exact tableReadMem_keeps _ _ _ _ _ _

theorem trttL1_keeps (s : State) (cached : Bool) (f : Option Nat) (sp : Bool) (c : Ctx) (m : Mode) (e : QWord)
    (va : Nat) : Keeps s (trttL1 s cached f sp c m e va).2 := by
  unfold trttL1
  have k := tableRead_keeps s cached (f == some 1) sp c m (bits e 47 12 * 4096 + 4 * nbits va 25 16) 4
  split <;> rename_i h <;> rw [h] at k
  · exact k
  · dsimp only at k ⊢
    split
    · exact k
    · split <;> exact k

theorem trttL2_keeps (s : State) (cached : Bool) (f : Option Nat) (sp : Bool) (c : Ctx) (m : Mode) (e : QWord)
    (va : Nat) : Keeps s (trttL2 s cached f sp c m e va).2 := by
  unfold trttL2
  have k := tableRead_keeps s cached (f == some 2) sp c m (bits e 47 12 * 4096 + 8 * nbits va 34 26) 8
  split <;> rename_i h <;> rw [h] at k
  · exact k
  · dsimp only at k ⊢
    split
    · exact k
    · exact k.trans (trttL1_keeps _ _ _ _ _ _ _ _)

/-- The TR-TT walk. -/
theorem trttWalk_keeps (s : State) (cached : Bool) (f : Option Nat) (c : Ctx) (m : Mode) (va : Nat) :
    Keeps s (trttWalk s cached f c m va).2 := by
  unfold trttWalk
  have k := tableRead_keeps s cached (f == some 3) false c m (bits s.trtt.l3ptr 47 16 * 65536 + 8 * nbits va 43 35) 8
  split <;> rename_i h <;> rw [h] at k
  · exact k
  · dsimp only at k ⊢
    split
    · exact k
    · exact k.trans (trttL2_keeps _ _ _ _ _ _ _ _)

theorem trttFill_keeps (s : State) (f : Option Nat) (c : Ctx) (m : Mode) (va : Nat) :
    Keeps s (trttFill s f c m va).2 := by
  unfold trttFill
  have k := trttWalk_keeps s true f c m va
  split <;> rename_i h <;> rw [h] at k
  · dsimp only
    split
    · exact k
    · exact k.trans (remember_keeps _ _ _)
  · exact k

/-- The TR-TT walk, with its caches in front. -/
theorem trttLookup_keeps (s : State) (f : Option Nat) (c : Ctx) (m : Mode) (va : Nat) :
    Keeps s (trttLookup s f c m va).2 := by
  unfold trttLookup
  split
  · dsimp only
    split
    · exact freeChoice_keeps s
    · exact ((freeChoice_keeps s).trans (dropFact_keeps _ _ _)).trans (trttFill_keeps _ _ _ _ _)
  · exact trttFill_keeps _ _ _ _ _
  · exact trttFill_keeps _ _ _ _ _

theorem trttEffect_keeps (s : State) (r : TrttResult) (va : Nat) : Keeps s (trttEffect s r va) := by
  cases r with
  | mapped => exact .refl _
  | null => exact .of_same rfl rfl rfl
  | invalid => exact post_keeps s .driver _

theorem tileEffect_keeps (s : State) (r : Option TrttResult) (va : Nat) : Keeps s (tileEffect s r va) := by
  cases r with
  | none => exact .refl _
  | some r => exact trttEffect_keeps s r va

/-- `Translate`. -/
theorem translate_keeps (s : State) (f : Option Nat) (who : Option Engine) (cl : Client) (c : Option Ctx) (m : Mode)
    (va : Nat) (a : Acc) : Keeps s (translate s f who cl c m va a).2 := by
  unfold translate
  split
  · exact .refl _
  · dsimp only
    generalize (if (who == some Engine.render) = true then trttProgramming s (c.getD noCtx).mode else none) = o
    split
    · exact .refl _
    · split
      · have k := trttLookup_keeps s f (c.getD noCtx) (c.getD noCtx).mode va
        split <;> rename_i h <;> rw [h] at k
        · exact k
        · exact k
        · exact k
        · exact k.trans (stage2_keeps _ _ _ _ _ _ _ _)
      · exact stage2_keeps _ _ _ _ _ _ _ _

/-! ### Accesses -/

/-- An atomic leaves as many bytes as it has, and in them its function of all of them, cut to its size (R570). -/
theorem leNat_rmwBytes (n : Nat) (f : RmwFun) (old : List Byte) :
    (rmwBytes n f old).length = n ∧ leNat (rmwBytes n f old) = f.apply n (leNat old) % 256 ^ n :=
  ⟨length_leBytes _ _, leNat_leBytes _ _⟩

theorem rmwStore_keeps (s : State) (w : WriteVia) (pa : Nat) (old new : List Byte) :
    Keeps s (rmwStore s w pa old new) := by
  unfold rmwStore
  split
  · exact .refl _
  · exact storeSeen_keeps _ _ _ _

theorem performAt_keeps (s : State) (a : MemAccess) (m ev : MemControls) (pa : Nat) :
    Keeps s (performAt s a m ev pa).2 := by
  unfold performAt
  dsimp only
  split
  · exact (loadSeen_keeps _ _ _ _).trans (noteCached_keeps _ _ _ _)
  · exact (loadSeen_keeps _ _ _ _).trans (noteCached_keeps _ _ _ _)
  · exact (storeSeen_keeps _ _ _ _).trans (noteCached_keeps _ _ _ _)
  · exact rmwStore_keeps _ _ _ _ _

theorem performAccess_keeps (s : State) (a : MemAccess) (pat pcd pwt : Bool) (pa : Nat) :
    Keeps s (performAccess s a pat pcd pwt pa) := by
  unfold performAccess
  refine Keeps.trans ?_ (giveReturn_keeps _ _)
  refine Keeps.trans ?_ (performAt_keeps _ _ _ _ _)
  exact .of_same rfl rfl rfl

theorem failAtomic_keeps (s : State) (a : MemAccess) : Keeps s (failAtomic s a) := by
  unfold failAtomic
  split
  · exact (takeCatastrophic_keeps _ _ _).trans (completeInvalid_keeps _ _)
  · exact completeInvalid_keeps _ _

theorem finishPhys_keeps (s : State) (a : MemAccess) (pat pcd pwt : Bool) (pa : Nat) :
    Keeps s (finishPhys s a pat pcd pwt pa) := by
  unfold finishPhys
  split
  · exact failAtomic_keeps s a
  · exact performAccess_keeps _ _ _ _ _ _

theorem storePart_keeps (q : AtomicPart) (a : MemAccess) (new : List Byte) (s : State) :
    Keeps s (q.store a new s) := by
  unfold AtomicPart.store
  split
  · exact .refl _
  · exact rmwStore_keeps _ _ _ _ _

theorem storeParts_keeps (a : MemAccess) (qs : List AtomicPart) (new : List Byte) (s : State) :
    Keeps s (storeParts a qs new s) := by
  induction qs generalizing new s with
  | nil => exact .refl _
  | cons q qs ih => exact (storePart_keeps q a _ s).trans (ih _ _)

theorem performParts_keeps (s : State) (a : MemAccess) (qs : List AtomicPart) : Keeps s (performParts s a qs) := by
  unfold performParts
  split
  · split
    · exact failAtomic_keeps s a
    · refine Keeps.trans ?_ (giveReturn_keeps _ _)
      refine Keeps.trans ?_ (storeParts_keeps _ _ _ _)
      exact .of_same rfl rfl rfl
  all_goals exact .refl _

theorem touchEffect_keeps (s : State) (r : TrttResult) (ts : List Touch) : Keeps s (touchEffect s r ts) := by
  unfold touchEffect
  split
  · exact .refl _
  · exact trttEffect_keeps _ _ _

theorem tileEffects_keeps (s : State) (ts : List Touch) : Keeps s (tileEffects s ts) :=
  (touchEffect_keeps _ _ _).trans (touchEffect_keeps _ _ _)

theorem overRead_keeps (a : MemAccess) (s : State) (t : Touch) : Keeps s (overRead a s t) := by
  unfold overRead
  split
  · exact .refl _
  · split
    · exact .refl _
    · refine Keeps.trans ?_ (noteCached_keeps _ _ _ _)
      exact .of_same rfl rfl rfl

theorem overReads_keeps (a : MemAccess) (s : State) (ts : List Touch) : Keeps s (ts.foldl (overRead a) s) := by
  induction ts generalizing s with
  | nil => exact .refl _
  | cons t ts ih => exact (overRead_keeps a s t).trans (ih _)

theorem performTouched_keeps (s : State) (a : MemAccess) (x : Xlate) (ls : List Touch) :
    Keeps s (performTouched s a x ls) := by
  unfold performTouched
  split
  · split
    · exact giveReturn_keeps _ _
    · exact finishPhys_keeps _ _ _ _ _ _
  · exact performParts_keeps _ _ _

/-- What finishing an access can do: the effects of the tiles, the reads of the other bytes, the access. -/
theorem finishAccess_ok {s t : State} {a : MemAccess} {m : Touch} {ls ts : List Touch}
    (h : finishAccess s a m ls ts = .ok t) :
    (a.tileX = true → ∀ x ∈ m :: (ls ++ ts), x.tile = none) ∧ touchesOk s.par (a.parts m.x ls) ts = true ∧
      t = performTouched (ts.foldl (overRead a) (tileEffects s (m :: (ls ++ ts)))) a m.x ls := by
  unfold finishAccess at h
  split at h
  · exact absurd h (by simp)
  · rename_i hx
    split at h
    · exact absurd h (by simp)
    · rename_i ho
      injection h with h
      refine ⟨fun hX x hm => ?_, by simpa using ho, h.symm⟩
      simp only [hX, Bool.true_and, List.any_eq_true, not_exists, not_and] at hx
      simpa using hx x hm

theorem finishAccess_keeps {s t : State} {a : MemAccess} {m : Touch} {ls ts : List Touch}
    (h : finishAccess s a m ls ts = .ok t) : Keeps s t := by
  obtain ⟨-, -, rfl⟩ := finishAccess_ok h
  exact (tileEffects_keeps _ _).trans ((overReads_keeps _ _ _).trans (performTouched_keeps _ _ _ _))

theorem enqueue_keeps (s : State) (w : Waiter) : Keeps s (enqueue s w) := .of_same rfl rfl rfl

theorem faultRequest_keeps {s t : State} {o : TransOut} {k : Client} {m : Option (BitVec 6)} {p : Pending}
    (h : faultRequest s o k m p = .ok t) : Keeps s t := by
  unfold faultRequest at h
  split at h
  · split at h
    · split at h
      · injection h with h
        exact h ▸ takeHalt_keeps _ _ _ _ _ _ _
      · exact absurd h (by simp)
    · exact takePageFault_keeps h
  · split at h
    · injection h with h
      exact h ▸ enqueue_keeps _ _
    · split at h
      · split at h
        · injection h with h
          exact h ▸ returnFaultCode_keeps _ _ _ _
        · injection h with h
          exact h ▸ enqueue_keeps _ _
        · injection h with h
          exact h ▸ enqueue_keeps _ _
        · exact absurd h (by simp)
      · exact absurd h (by simp)
  · injection h with h
    exact h ▸ enqueue_keeps _ _
  · split at h
    · injection h with h
      refine h ▸ Keeps.trans ?_ (completeInvalid_keeps _ _)
      exact (takeCatastrophic_keeps s _ _).then_same rfl rfl rfl
    · injection h with h
      exact h ▸ completeInvalid_keeps _ _
  · exact absurd h (by simp)
  · injection h with h
    exact h ▸ .refl _

theorem miniLookup_keeps (s : State) (a : MemAccess) : Keeps s (miniLookup s a).2 := by
  unfold miniLookup
  split
  · exact .refl _
  · dsimp only
    split
    · exact freeChoice_keeps s
    · exact (freeChoice_keeps s).then_same rfl rfl rfl

theorem translateAccess_keeps (s : State) (f : Option Nat) (a : MemAccess) (c : Option Ctx) :
    Keeps s (translateAccess s f a c).2 := by
  unfold translateAccess
  have k : Keeps s (if miniPending s a then (none, s) else miniLookup s a).2 := by
    split
    · exact .refl _
    · exact miniLookup_keeps s a
  split <;> rename_i h <;> rw [h] at k
  · exact k
  · split
    · exact k
    · exact k.trans (translate_keeps _ _ _ _ _ _ _ _)

theorem translateAround_keeps (s : State) (f : Option Nat) (a : MemAccess) (c : Option Ctx) (vas : List Nat) :
    Keeps s (translateAround s f a c vas).2 := by
  induction vas generalizing s with
  | nil => exact .refl _
  | cons va vas ih =>
    have k := translateAccess_keeps s f { a with va := va } c
    unfold translateAround
    dsimp only
    split
    · exact k.trans (ih _)
    all_goals exact k

theorem translatedAccess_keeps {s t : State} {r : TransOut × State} {f : Option Nat} {a : MemAccess} {c : Option Ctx}
    (k : Keeps s r.2) (h : translatedAccess r f a c = .ok t) : Keeps s t := by
  unfold translatedAccess at h
  split at h
  · have k2 := k.trans (translateAround_keeps r.2 f a c (a.later.map Prod.fst ++ a.around))
    split at h <;> rename_i h2 <;> rw [h2] at k2
    · exact k2.trans (finishAccess_keeps h)
    · exact k2.trans (faultRequest_keeps h)
  · exact k.trans (faultRequest_keeps h)
  · exact k.trans (faultRequest_keeps h)
  · exact k.trans (faultRequest_keeps h)
  · exact k.trans (faultRequest_keeps h)
  · exact absurd h (by simp)

/-- One access inside one page. -/
theorem accessOne_keeps {s t : State} {f : Option Nat} {a : MemAccess} (h : accessOne s f a = .ok t) :
    Keeps s t := by
  unfold accessOne at h
  dsimp only at h
  split at h
  · injection h with h
    exact h ▸ enqueue_keeps _ _
  · split at h
    · exact absurd h (by simp)
    · split at h
      · split at h
        · injection h with h
          exact h ▸ performTouched_keeps _ _ _ _
        · exact absurd h (by simp)
      · exact translatedAccess_keeps (translateAccess_keeps _ _ _ _) h

theorem accessParts_keeps {n : Nat} {s t : State} {a : MemAccess} (h : accessParts s a n = .ok t) : Keeps s t := by
  induction n generalizing s a with
  | zero => exact accessOne_keeps h
  | succ n ih =>
    unfold accessParts at h
    dsimp only at h
    split at h
    · exact accessOne_keeps h
    · split at h
      · exact absurd h (by simp)
      · rename_i h1
        exact (accessOne_keeps h1).trans (ih h)

/-- A translated access. -/
theorem access_keeps {s t : State} {a : MemAccess} (h : access s a = .ok t) : Keeps s t := by
  unfold access at h
  split at h
  · exact accessOne_keeps h
  all_goals exact accessParts_keeps h

theorem hdcAnswer_keeps {s t : State} {c : Ctx} {q : HdcReq} {x : Xlate} {n : Option TrttResult} {d : Bool}
    (h : hdcAnswer s c q x n d = .ok t) : Keeps s t := by
  unfold hdcAnswer at h
  dsimp only at h
  split at h
  · split at h
    · exact absurd h (by simp)
    · injection h with h
      exact h ▸ sendHdcResponse_keeps _ _
  · injection h with h
    exact h ▸ ((tileEffect_keeps _ _ _).trans (hdcFaultResponse_keeps _ _ _ _)).trans (sendHdcResponse_keeps _ _)

theorem hdcRequest_keeps {s t : State} {f : Option Nat} {q : HdcReq} (h : hdcRequest s f q = .ok t) :
    Keeps s t := by
  unfold hdcRequest at h
  split at h
  · injection h with h
    exact h ▸ enqueue_keeps _ _
  · split at h
    · exact absurd h (by simp)
    · rename_i c hc
      split at h
      · exact absurd h (by simp)
      · split at h
        · exact absurd h (by simp)
        · have k := translate_keeps s f (some .render) q.client (some c) c.mode (q.vpage.toNat * 4096)
            (if q.write then .write else .read)
          dsimp only at h
          split at h
          · exact k.trans (hdcAnswer_keeps h)
          · exact k.trans (faultRequest_keeps h)
          · exact k.trans (faultRequest_keeps h)
          · exact k.trans (faultRequest_keeps h)
          · exact k.trans (faultRequest_keeps h)
          · exact absurd h (by simp)

theorem trttMake_keeps {s t : State} {f : Option Nat} {c : Ctx} {va : Nat} (h : trttMake s f c va = .ok t) :
    Keeps s t := by
  unfold trttMake at h
  have k := trttWalk_keeps s false f c c.mode va
  split at h <;> rename_i hw <;> rw [hw] at k
  · injection h with h
    exact h ▸ (k.trans (trttEffect_keeps _ _ _)).then_same rfl rfl rfl
  · injection h with h
    exact h ▸ k.trans (takeHalt_keeps _ _ _ _ _ _ _)
  · injection h with h
    exact h ▸ k.trans (enqueue_keeps _ _)
  · injection h with h
    exact h ▸ k.trans (enqueue_keeps _ _)
  · injection h with h
    exact h ▸ (k.trans (takeCatastrophic_keeps _ _ _)).then_same rfl rfl rfl
  · exact absurd h (by simp)
  · injection h with h
    exact h ▸ k

theorem trttOperation_keeps {s t : State} {f : Option Nat} {va : Nat} (h : trttOperation s f va = .ok t) :
    Keeps s t := by
  unfold trttOperation at h
  split at h
  · exact absurd h (by simp)
  · split at h
    · exact absurd h (by simp)
    · split at h
      · exact absurd h (by simp)
      · split at h
        · injection h with h
          exact h ▸ enqueue_keeps _ _
        · exact trttMake_keeps h

/-- The end of a walk operation. -/
theorem finishWalk_keeps {s t : State} {w : WalkRes × State} {c : Option Ctx} {r : WalkReq} (hr : Keeps s w.2)
    (h : finishWalk w c r = .ok t) : Keeps s t := by
  unfold finishWalk at h
  split at h
  · split at h
    · injection h with h
      exact h ▸ hr.then_same rfl rfl rfl
    · exact absurd h (by simp)
  · exact hr.trans (takePageFault_keeps h)
  · split at h
    · injection h with h
      exact h ▸ (hr.trans (takeCatastrophic_keeps _ _ _)).then_same rfl rfl rfl
    · injection h with h
      exact h ▸ hr.then_same rfl rfl rfl
  · exact absurd h (by simp)

theorem doWalk_keeps {s t : State} {r : WalkReq} {m : Mode} {c : Option Ctx} {cx : Ctx}
    (h : doWalk r m c cx s = .ok t) : Keeps s t := by
  unfold doWalk at h
  split at h
  · injection h with h
    exact h ▸ enqueue_keeps _ _
  · exact finishWalk_keeps (walkMode_keeps _ _ _ _ _ _ _) h

theorem walkGgtt_keeps {s t : State} {r : WalkReq} (h : walkGgtt r s = .ok t) : Keeps s t := by
  unfold walkGgtt at h
  split at h
  · exact doWalk_keeps h
  · split at h
    · exact absurd h (by simp)
    · split at h
      · exact absurd h (by simp)
      · exact doWalk_keeps h

theorem walkCtx_keeps {s t : State} {m : Mode} {e : Engine} {r : WalkReq} (h : walkCtx m e r s = .ok t) :
    Keeps s t := by
  unfold walkCtx at h
  split at h
  · exact absurd h (by simp)
  · split at h
    · exact absurd h (by simp)
    · split at h
      · exact absurd h (by simp)
      · exact doWalk_keeps h

/-! ### Again -/

theorem walkAgain_keeps {s t : State} {r : WalkReq} (h : walkAgain r s = .ok t) : Keeps s t := by
  unfold walkAgain at h
  split at h
  · exact walkGgtt_keeps h
  · split at h
    · injection h with h
      exact h ▸ .refl _
    · split at h
      · exact walkGgtt_keeps h
      · exact walkCtx_keeps h

theorem trttAgain_keeps {s t : State} {f : Option Nat} {va : Nat} (h : trttAgain s f va = .ok t) : Keeps s t := by
  unfold trttAgain at h
  split at h
  · injection h with h
    exact h ▸ .refl _
  · exact trttOperation_keeps h

/-- The tile of an address of a sample: a state of its own, whether the walk has stopped or not. -/
theorem auxTile_keeps {s t : State} {f : Option Nat} {c : Ctx} {va : Nat} {p : Pending} {r : Option TrttResult}
    (h : auxTile s f c va p = .ok (r, t)) : Keeps s t := by
  unfold auxTile at h
  split at h
  · simp only [Except.ok.injEq, Prod.mk.injEq] at h
    exact h.2 ▸ .refl _
  · have k := trttLookup_keeps s f c c.mode va
    split at h <;> rename_i hw <;> rw [hw] at k <;>
      simp only [Except.ok.injEq, Prod.mk.injEq, reduceCtorEq] at h
    · exact h.2 ▸ k
    · exact h.2 ▸ k.trans (takeHalt_keeps _ _ _ _ _ _ _)
    · exact h.2 ▸ k.trans (enqueue_keeps _ _)
    · exact h.2 ▸ k.trans (enqueue_keeps _ _)
    · refine h.2 ▸ Keeps.trans ?_ (completeInvalid_keeps _ _)
      exact (k.trans (takeCatastrophic_keeps _ _ _)).then_same rfl rfl rfl
    · exact h.2 ▸ k

theorem auxSecond_keeps {s t : State} {f : Option Nat} {c : Ctx} {x y : Nat} (h : auxSecond s f c x y = .ok t) :
    Keeps s t := by
  unfold auxSecond at h
  split at h <;> rename_i h1
  · exact absurd h (by simp)
  · injection h with h
    exact h ▸ auxTile_keeps h1
  · split at h
    · injection h with h
      exact h ▸ (auxTile_keeps h1).then_same rfl rfl rfl
    · exact absurd h (by simp)

theorem auxTiles_keeps {s t : State} {f : Option Nat} {c : Ctx} {x y : Nat} {k : Bool}
    (h : auxTiles s f c x y k = .ok t) : Keeps s t := by
  unfold auxTiles at h
  split at h
  · exact auxSecond_keeps h
  · split at h <;> rename_i h1
    · exact absurd h (by simp)
    · injection h with h
      exact h ▸ auxTile_keeps h1
    · split at h
      · exact (auxTile_keeps h1).trans (auxSecond_keeps h)
      · injection h with h
        exact h ▸ ((auxTile_keeps h1).trans (trttEffect_keeps _ _ _)).then_same rfl rfl rfl

/-- A sample of a surface with an auxiliary surface. -/
theorem auxSample_keeps {s t : State} {f : Option Nat} {x y : Nat} {k : Bool} (h : auxSample s f x y k = .ok t) :
    Keeps s t := by
  unfold auxSample at h
  split at h
  · injection h with h
    exact h ▸ enqueue_keeps _ _
  · split at h
    · exact absurd h (by simp)
    · split at h
      · exact absurd h (by simp)
      · split at h
        · exact absurd h (by simp)
        · exact absurd h (by simp)
        · exact auxTiles_keeps h

theorem auxAgain_keeps {s t : State} {f : Option Nat} {x y : Nat} {k : Bool} (h : auxAgain s f x y k = .ok t) :
    Keeps s t := by
  unfold auxAgain at h
  split at h
  · injection h with h
    exact h ▸ .refl _
  · exact auxSample_keeps h

/-- A waiting request, made again. A message about contexts that is done again does more. -/
theorem attempt_keeps {s t : State} {f : Option Nat} {w : Waiter} (hw : w.req.isRequest = true)
    (h : attempt s f w = .ok t) : Keeps s t := by
  unfold attempt at h
  split at h
  · injection h with h
    exact h ▸ enqueue_keeps _ _
  · split at h <;> rename_i hr <;> rw [hr] at hw
    · exact accessOne_keeps h
    · exact hdcRequest_keeps h
    · exact walkAgain_keeps h
    · exact trttAgain_keeps h
    · exact auxAgain_keeps h
    · exact absurd hw (by simp [Pending.isRequest])
    · exact absurd hw (by simp [Pending.isRequest])

/-- Everything `drain` can do is done by `attempt`s, one after the other. -/
theorem retryAll_induct {P : State → Prop} (hstep : ∀ s t w, P s → attempt s none w = .ok t → P t) {ws : List Waiter}
    {s t : State} (hs : P s) (h : retryAll ws s = .ok t) : P t := by
  induction ws generalizing s with
  | nil =>
    injection h with h
    exact h ▸ hs
  | cons w ws ih =>
    unfold retryAll at h
    split at h
    · rename_i h1
      exact ih (hstep _ _ _ hs h1) h
    · exact absurd h (by simp)

/-- Requests made again, in arrival order. -/
theorem retryAll_keeps {ws : List Waiter} {s t : State} (hw : ∀ w ∈ ws, w.req.isRequest = true)
    (h : retryAll ws s = .ok t) : Keeps s t := by
  induction ws generalizing s with
  | nil =>
    injection h with h
    exact h ▸ .refl _
  | cons w ws ih =>
    unfold retryAll at h
    split at h
    · rename_i h1
      exact (attempt_keeps (hw w (by simp)) h1).trans (ih (fun v hv => hw v (by simp [hv])) h)
    · exact absurd h (by simp)

theorem retryRequests_keeps {s t : State} (h : retryRequests s = .ok t) : Keeps s t := by
  unfold retryRequests at h
  split at h
  · rename_i h1
    injection h with h
    refine h ▸ Keeps.then_same (Keeps.trans ?_ (retryAll_keeps (fun w hw => ?_) h1)) rfl rfl rfl
    · exact .of_same rfl rfl rfl
    · exact (List.mem_takeWhile_imp hw : _)
  · exact absurd h (by simp)

end Sys2Proof.Machine
end

