-- ==== Sys2Proof/Laws/Exec.lean ====
section
/-! SUPPORT. What an operation of the opcode table can change: `exec_keeps`, from one lemma per shape of meaning. -/
namespace Sys2Proof.Machine

/-- An operation that only answers. -/
theorem answer_keeps {s t : State} {r : Result} (h : answer s r = .next t) : Keeps s t := by
  injection h with h
  exact h ▸ .of_same rfl rfl rfl

/-- An address of a surface is answered exactly for an offset below 2^38 (R1200). -/
theorem answerOffset_ok {s t : State} {b o : Nat} (h : answerOffset s b o = .next t) :
    o < 2 ^ 38 ∧ t = { s with out := .address (b + o) } := by
  unfold answerOffset at h
  split at h
  · rename_i ho
    injection h with h
    exact ⟨ho, h.symm⟩
  · cases h

/-- An operation that refuses or answers. -/
theorem answerOffset_keeps {s t : State} {b o : Nat} (h : answerOffset s b o = .next t) : Keeps s t :=
  answer_keeps (r := .address (b + o)) (congrArg Host.Outcome.next (answerOffset_ok h).2.symm)

/-- A tile function. -/
theorem execTile_keeps {s t : State} {k : TileWalk} {b : BitVec 64} {p x y : BitVec 32}
    (h : execTile k b p x y s = .next t) : Keeps s t := by
  unfold execTile at h
  split at h
  · cases h
  · exact answerOffset_keeps h

/-- An atomic. -/
theorem execAtomic_keeps {s t : State} {f : QWord → QWord} {a : BitVec 64} (h : execAtomic f a s = .next t) :
    Keeps s t :=
  (atomicRmwQ_keeps _ _ _).trans (answer_keeps h)

/-- An address that is a free value. -/
theorem freeAddress_keeps {s t : State} (h : freeAddress s = .next t) : Keeps s t :=
  (freeQ_keeps s).trans (answer_keeps h)

/-- An action that may be refused. -/
theorem outcome_keeps {r : Except Refusal State} {s t : State} (k : ∀ u, r = .ok u → Keeps s u)
    (h : outcome r = .next t) : Keeps s t := by
  unfold outcome at h
  split at h
  · injection h with h
    exact h ▸ k _ rfl
  · cases h

theorem execTrttWalk_keeps {s t : State} {va : BitVec 64} (h : execTrttWalk va s = .next t) : Keeps s t :=
  outcome_keeps (fun _ k => trttOperation_keeps k) h

theorem execGgttWalk_keeps {s t : State} {e : Option Engine} {a : Acc} {va : QWord}
    (h : execGgttWalk e a va s = .next t) : Keeps s t :=
  outcome_keeps (fun _ k => walkGgtt_keeps k) h

/-! ### Invalidation -/

theorem refetchCtx_ident (xs : List IommuEntry) (c : Ctx) : (refetchCtx xs c).ident = c.ident := by
  unfold refetchCtx
  split <;> rfl

theorem invalidateEngine_keeps (s : State) (k : InvScope) (st : InvStructs) (e : Engine) :
    Keeps s (invalidateEngine s k st e) := by
  unfold invalidateEngine
  dsimp only
  split
  · refine setEng_keeps ?_
    unfold EngineState.refetch
    split
    · refine ⟨?_, id, rfl, rfl⟩
      show (((s.eng e).ctx.map (refetchCtx s.iommu)).map Ctx.ident) = _
      rw [Option.map_map]
      congr 1
      funext c
      exact refetchCtx_ident _ _
    · exact ⟨rfl, id, rfl, rfl⟩
  · exact .refl _

theorem wipeHdc_keeps (s : State) : Keeps s (wipeHdc s) := .of_same rfl rfl rfl

/-- An invalidation. -/
theorem invalidateTlb_keeps (s : State) (k : InvScope) (st : InvStructs) : Keeps s (invalidateTlb s k st) := by
  have h : Keeps s ([Engine.render, .vcs0, .vcs1, .vecs, .bcs].foldl (fun t e => invalidateEngine t k st e) s) :=
    ((((invalidateEngine_keeps s k st _).trans (invalidateEngine_keeps _ k st _)).trans
      (invalidateEngine_keeps _ k st _)).trans (invalidateEngine_keeps _ k st _)).trans
      (invalidateEngine_keeps _ k st _)
  unfold invalidateTlb
  dsimp only
  split
  · refine Keeps.trans ?_ (wipeHdc_keeps _)
    split
    · exact h.then_same rfl rfl rfl
    · exact h
  · split
    · exact h.then_same rfl rfl rfl
    · exact h

/-! ### The HDC walk port -/

theorem sendPageReq_keeps {s t : State} {q : HdcReq} (h : sendPageReq q s = .ok t) : Keeps s t := by
  unfold sendPageReq at h
  dsimp only at h
  split at h
  · injection h with h
    exact h ▸ .of_same rfl rfl rfl
  · refine Keeps.trans ?_ (hdcRequest_keeps h)
    exact .of_same rfl rfl rfl

theorem execHdcPageReq_keeps {s t : State} {m : PageReqMsg} (h : execHdcPageReq m s = .next t) : Keeps s t := by
  unfold execHdcPageReq at h
  split at h
  · exact answer_keeps h
  · split at h
    · exact answer_keeps h
    · exact outcome_keeps (fun _ k => sendPageReq_keeps k) h

theorem claimResponse_keeps (s : State) (m : PageRespMsg) : Keeps s (claimResponse s m) := by
  unfold claimResponse
  dsimp only
  split <;> exact .of_same rfl rfl rfl

theorem sendHeld_keeps {s t : State} {x y : BitVec 2} (h : sendHeld x y s = .ok t) : Keeps s t := by
  unfold sendHeld at h
  dsimp only at h
  split at h
  · injection h with h
    exact h ▸ .refl _
  · refine Keeps.trans ?_ (sendPageReq_keeps h)
    exact .of_same rfl rfl rfl

theorem execHdcPageResp_keeps {s t : State} {m : PageRespMsg} (h : execHdcPageResp m s = .next t) : Keeps s t := by
  unfold execHdcPageResp at h
  split at h
  · exact answer_keeps h
  · split at h
    · exact answer_keeps h
    · exact outcome_keeps (fun _ k => (claimResponse_keeps s m).trans (sendHeld_keeps k)) h

theorem execHdcTlbInv_keeps {s t : State} {m : TlbInvMsg} (h : execHdcTlbInv m s = .next t) : Keeps s t := by
  unfold execHdcTlbInv at h
  split at h
  · split at h
    · exact answer_keeps h
    · refine Keeps.trans ?_ (answer_keeps h)
      exact .of_same rfl rfl rfl
  · split at h
    · refine Keeps.trans ?_ (answer_keeps h)
      exact .of_same rfl rfl rfl
    · exact answer_keeps h
  · split at h
    · exact answer_keeps h
    · split at h
      · refine Keeps.trans ?_ (outcome_keeps (fun _ k => retryRequests_keeps k) h)
        exact .of_same rfl rfl rfl
      · exact answer_keeps h

/-! ### Every operation -/

theorem execAstc_keeps {s t : State} {v : BitVec 128} {f : BitVec 9} {x y z : BitVec 4}
    (h : execAstc v f x y z s = .next t) : Keeps s t := by
  unfold execAstc at h
  split at h
  · cases h
  · split at h
    · cases h
    · split at h
      · exact answer_keeps h
      · exact (freeQ_keeps s).trans (answer_keeps h)

/-- A surface function: refused, answered, or a free value. -/
theorem surf_keeps {s t : State} {p q : Prop} [Decidable p] [Decidable q] {x : Refusal} {b o : Nat}
    (h : (if p then .refused x else if q then answerOffset s b o else freeAddress s) = .next t) : Keeps s t := by
  split at h
  · cases h
  · split at h
    · exact answerOffset_keeps h
    · exact freeAddress_keeps h

theorem execTileFence_keeps {s t : State} {l b : BitVec 64} {p : BitVec 32} {k : TileWalk}
    (h : execTileFence l b p k s = .next t) : Keeps s t := by
  unfold execTileFence at h
  split at h
  · exact answer_keeps h
  · exact freeAddress_keeps h

theorem execBufTyped_keeps {s t : State} {b : BitVec 64} {p u v : BitVec 32}
    (h : execBufTyped b p u v s = .next t) : Keeps s t := by
  unfold execBufTyped at h
  split at h
  · exact answerOffset_keeps h
  · exact freeAddress_keeps h

theorem execMcsDecode_keeps {s t : State} {n : Samples} {m : BitVec 64} {k : BitVec 4}
    (h : execMcsDecode n m k s = .next t) : Keeps s t := by
  unfold execMcsDecode at h
  split at h
  · exact answer_keeps h
  · injection h with h
    exact h ▸ .of_same rfl rfl rfl

theorem execSurfCube_keeps {s t : State} {a : BitVec 32} {f : BitVec 3} (h : execSurfCube a f s = .next t) :
    Keeps s t := by
  unfold execSurfCube at h
  split at h
  · exact answer_keeps h
  · exact (freeQ_keeps s).trans (answer_keeps h)

theorem execSurfPad_keeps {s t : State} {a : SurfPad} (h : execSurfPad a s = .next t) : Keeps s t := by
  unfold execSurfPad at h
  dsimp only at h
  split at h
  · exact answer_keeps h
  · exact (freeQ_keeps s).trans (answer_keeps h)
  · exact (freeQ_keeps s).trans (answer_keeps h)
  · exact ((freeQ_keeps s).trans (freeQ_keeps _)).trans (answer_keeps h)

theorem execEtc1_keeps {s t : State} {v : BitVec 64} {n : Pos} (h : execEtc1 v n s = .next t) : Keeps s t := by
  refine Keeps.trans ?_ (answer_keeps h)
  unfold decodeEtc1
  repeat' split
  all_goals first
    | exact .refl _
    | exact .of_same rfl rfl rfl

/-- EVERY OPERATION: one that answers a next state keeps what `Keeps` says. -/
theorem exec_keeps {i : Instr} {s t : State} (h : exec i s = .next t) : Keeps s t := by
  cases i
  case trttWalk => exact execTrttWalk_keeps h
  case ggttWalk => exact execGgttWalk_keeps h
  case ppgtt32Walk => exact outcome_keeps (fun _ k => walkCtx_keeps k) h
  case ppgtt48Walk => exact outcome_keeps (fun _ k => walkCtx_keeps k) h
  case ia32eWalk => exact outcome_keeps (fun _ k => walkCtx_keeps k) h
  case tlbInvalidate => exact (invalidateTlb_keeps _ _ _).trans (answer_keeps h)
  case hdcPageReq => exact execHdcPageReq_keeps h
  case hdcPageResp => exact execHdcPageResp_keeps h
  case hdcTlbInv => exact execHdcTlbInv_keeps h
  case astc => exact execAstc_keeps h
  case surf1D => exact surf_keeps h
  case surf2D => exact surf_keeps h
  case surf3D => exact surf_keeps h
  case bufTyped => exact execBufTyped_keeps h
  case tileFence => exact execTileFence_keeps h
  case surfCube => exact execSurfCube_keeps h
  case surfPad => exact execSurfPad_keeps h
  case bufRaw => exact answerOffset_keeps h
  case bufStructured => exact surf_keeps h
  case mcsDecode => exact execMcsDecode_keeps h
  case etc1 => exact execEtc1_keeps h
  case tileLinear => exact answerOffset_keeps h
  case tileX => exact execTile_keeps h
  case tileY => exact execTile_keeps h
  case tileW => exact execTile_keeps h
  case pageUpdate0000 => exact execAtomic_keeps h
  case pageUpdate0001 => exact execAtomic_keeps h
  case pageUpdate0010 => exact execAtomic_keeps h
  case pageUpdate0011 => exact execAtomic_keeps h
  case pageUpdate0100 => exact execAtomic_keeps h
  case pageUpdate0101 => exact execAtomic_keeps h
  case pageUpdate0110 => exact execAtomic_keeps h
  case pageUpdate0111 => exact execAtomic_keeps h
  case pageUpdate1000 => exact execAtomic_keeps h
  case pageUpdate1001 => exact execAtomic_keeps h
  case pageUpdate1010 => exact execAtomic_keeps h
  case pageUpdate1011 => exact execAtomic_keeps h
  case pageUpdate1100 => exact execAtomic_keeps h
  case pageUpdate1101 => exact execAtomic_keeps h
  case pageUpdate1110 => exact execAtomic_keeps h
  case pageUpdate1111 => exact execAtomic_keeps h
  case aUpdate000 => exact execAtomic_keeps h
  case aUpdate001 => exact execAtomic_keeps h
  case aUpdate010 => exact execAtomic_keeps h
  case aUpdate011 => exact execAtomic_keeps h
  case aUpdate100 => exact execAtomic_keeps h
  case adUpdate101 => exact execAtomic_keeps h
  case adUpdate110 => exact execAtomic_keeps h
  case adUpdate111 => exact execAtomic_keeps h
  all_goals exact answer_keeps h

end Sys2Proof.Machine
end

