-- ==== Sys2Proof/Laws/PerInstr.lean ====
section
/-! SUPPORT. Facts about every operation as syntax, one lemma per constructor. -/
namespace Sys2Proof.Laws.RecordLength

open Machine

/-- The record of an operation is 64 bytes. -/
def Statement (i : Instr) : Prop := (encode i).length = 64

theorem tileLinear (a : BitVec 64) (b : BitVec 32) (c : BitVec 32) (d : BitVec 32) : Statement (.tileLinear a b c d) :=
  length_record (le_trans (kTile_lawful.size _) (by decide))

theorem tileX (a : BitVec 64) (b : BitVec 32) (c : BitVec 32) (d : BitVec 32) : Statement (.tileX a b c d) :=
  length_record (le_trans (kTile_lawful.size _) (by decide))

theorem tileY (a : BitVec 64) (b : BitVec 32) (c : BitVec 32) (d : BitVec 32) : Statement (.tileY a b c d) :=
  length_record (le_trans (kTile_lawful.size _) (by decide))

theorem tileW (a : BitVec 64) (b : BitVec 32) (c : BitVec 32) (d : BitVec 32) : Statement (.tileW a b c d) :=
  length_record (le_trans (kTile_lawful.size _) (by decide))

theorem tileFence (a : BitVec 64) (b : BitVec 64) (c : BitVec 32) (d : TileWalk) : Statement (.tileFence a b c d) :=
  length_record (le_trans (kFence_lawful.size _) (by decide))

theorem tileYs64 (a : BitVec 16) (b : BitVec 16) : Statement (.tileYs64 a b) :=
  length_record (le_trans (kXY_lawful.size _) (by decide))

theorem tileYs16 (a : BitVec 16) (b : BitVec 16) : Statement (.tileYs16 a b) :=
  length_record (le_trans (kXY_lawful.size _) (by decide))

theorem tileYs8 (a : BitVec 16) (b : BitVec 16) : Statement (.tileYs8 a b) :=
  length_record (le_trans (kXY_lawful.size _) (by decide))

theorem tileYsMsaa2_64 (a : BitVec 16) (b : BitVec 16) (c : BitVec 16) : Statement (.tileYsMsaa2_64 a b c) :=
  length_record (le_trans (kXYS_lawful.size _) (by decide))

theorem tileYsMsaa2_16 (a : BitVec 16) (b : BitVec 16) (c : BitVec 16) : Statement (.tileYsMsaa2_16 a b c) :=
  length_record (le_trans (kXYS_lawful.size _) (by decide))

theorem tileYsMsaa2_8 (a : BitVec 16) (b : BitVec 16) (c : BitVec 16) : Statement (.tileYsMsaa2_8 a b c) :=
  length_record (le_trans (kXYS_lawful.size _) (by decide))

theorem tileYsMsaa4_64 (a : BitVec 16) (b : BitVec 16) (c : BitVec 16) : Statement (.tileYsMsaa4_64 a b c) :=
  length_record (le_trans (kXYS_lawful.size _) (by decide))

theorem tileYsMsaa4_16 (a : BitVec 16) (b : BitVec 16) (c : BitVec 16) : Statement (.tileYsMsaa4_16 a b c) :=
  length_record (le_trans (kXYS_lawful.size _) (by decide))

theorem tileYsMsaa4_8 (a : BitVec 16) (b : BitVec 16) (c : BitVec 16) : Statement (.tileYsMsaa4_8 a b c) :=
  length_record (le_trans (kXYS_lawful.size _) (by decide))

theorem tileYsMsaa8_64 (a : BitVec 16) (b : BitVec 16) (c : BitVec 16) : Statement (.tileYsMsaa8_64 a b c) :=
  length_record (le_trans (kXYS_lawful.size _) (by decide))

theorem tileYsMsaa8_16 (a : BitVec 16) (b : BitVec 16) (c : BitVec 16) : Statement (.tileYsMsaa8_16 a b c) :=
  length_record (le_trans (kXYS_lawful.size _) (by decide))

theorem tileYsMsaa8_8 (a : BitVec 16) (b : BitVec 16) (c : BitVec 16) : Statement (.tileYsMsaa8_8 a b c) :=
  length_record (le_trans (kXYS_lawful.size _) (by decide))

theorem tileYsMsaa16_64 (a : BitVec 16) (b : BitVec 16) (c : BitVec 16) : Statement (.tileYsMsaa16_64 a b c) :=
  length_record (le_trans (kXYS_lawful.size _) (by decide))

theorem tileYsMsaa16_16 (a : BitVec 16) (b : BitVec 16) (c : BitVec 16) : Statement (.tileYsMsaa16_16 a b c) :=
  length_record (le_trans (kXYS_lawful.size _) (by decide))

theorem tileYsMsaa16_8 (a : BitVec 16) (b : BitVec 16) (c : BitVec 16) : Statement (.tileYsMsaa16_8 a b c) :=
  length_record (le_trans (kXYS_lawful.size _) (by decide))

theorem tileYf64 (a : BitVec 16) (b : BitVec 16) : Statement (.tileYf64 a b) :=
  length_record (le_trans (kXY_lawful.size _) (by decide))

theorem tileYf16 (a : BitVec 16) (b : BitVec 16) : Statement (.tileYf16 a b) :=
  length_record (le_trans (kXY_lawful.size _) (by decide))

theorem tileYf8 (a : BitVec 16) (b : BitVec 16) : Statement (.tileYf8 a b) :=
  length_record (le_trans (kXY_lawful.size _) (by decide))

theorem trttWalk (a : BitVec 64) : Statement (.trttWalk a) :=
  length_record (le_trans ((Codec.bv_lawful (w := 64) (n := 8) (by decide)).size _) (by decide))

theorem ggttWalk (a : Option Engine) (b : Acc) (c : BitVec 64) : Statement (.ggttWalk a b c) :=
  length_record (le_trans (kGgtt_lawful.size _) (by decide))

theorem ppgtt32Walk (a : Engine) (b : Client) (c : BitVec 6) (d : Acc) (e : BitVec 64) : Statement (.ppgtt32Walk a b c d e) :=
  length_record (le_trans (kWalk_lawful.size _) (by decide))

theorem ppgtt48Walk (a : Engine) (b : Client) (c : BitVec 6) (d : Acc) (e : BitVec 64) : Statement (.ppgtt48Walk a b c d e) :=
  length_record (le_trans (kWalk_lawful.size _) (by decide))

theorem ia32eWalk (a : Engine) (b : Client) (c : BitVec 6) (d : Acc) (e : BitVec 64) : Statement (.ia32eWalk a b c d e) :=
  length_record (le_trans (kWalk_lawful.size _) (by decide))

theorem tlbInvalidate (a : InvScope) (b : InvStructs) : Statement (.tlbInvalidate a b) :=
  length_record (le_trans (kInv_lawful.size _) (by decide))

theorem hdcPageReq (a : PageReqMsg) : Statement (.hdcPageReq a) :=
  length_record (le_trans (cPageReq_lawful.size _) (by decide))

theorem hdcPageResp (a : PageRespMsg) : Statement (.hdcPageResp a) :=
  length_record (le_trans (cPageResp_lawful.size _) (by decide))

theorem hdcTlbInv (a : TlbInvMsg) : Statement (.hdcTlbInv a) :=
  length_record (le_trans (cTlbInv_lawful.size _) (by decide))

theorem pageUpdate0000 (a : BitVec 64) : Statement (.pageUpdate0000 a) :=
  length_record (le_trans (Nat.succ_le_succ ((Codec.bv_lawful (w := 64) (n := 8) (by decide)).size _)) (by decide))

theorem pageUpdate0001 (a : BitVec 64) : Statement (.pageUpdate0001 a) :=
  length_record (le_trans (Nat.succ_le_succ ((Codec.bv_lawful (w := 64) (n := 8) (by decide)).size _)) (by decide))

theorem pageUpdate0010 (a : BitVec 64) : Statement (.pageUpdate0010 a) :=
  length_record (le_trans (Nat.succ_le_succ ((Codec.bv_lawful (w := 64) (n := 8) (by decide)).size _)) (by decide))

theorem pageUpdate0011 (a : BitVec 64) : Statement (.pageUpdate0011 a) :=
  length_record (le_trans (Nat.succ_le_succ ((Codec.bv_lawful (w := 64) (n := 8) (by decide)).size _)) (by decide))

theorem pageUpdate0100 (a : BitVec 64) : Statement (.pageUpdate0100 a) :=
  length_record (le_trans (Nat.succ_le_succ ((Codec.bv_lawful (w := 64) (n := 8) (by decide)).size _)) (by decide))

theorem pageUpdate0101 (a : BitVec 64) : Statement (.pageUpdate0101 a) :=
  length_record (le_trans (Nat.succ_le_succ ((Codec.bv_lawful (w := 64) (n := 8) (by decide)).size _)) (by decide))

theorem pageUpdate0110 (a : BitVec 64) : Statement (.pageUpdate0110 a) :=
  length_record (le_trans (Nat.succ_le_succ ((Codec.bv_lawful (w := 64) (n := 8) (by decide)).size _)) (by decide))

theorem pageUpdate0111 (a : BitVec 64) : Statement (.pageUpdate0111 a) :=
  length_record (le_trans (Nat.succ_le_succ ((Codec.bv_lawful (w := 64) (n := 8) (by decide)).size _)) (by decide))

theorem pageUpdate1000 (a : BitVec 64) : Statement (.pageUpdate1000 a) :=
  length_record (le_trans (Nat.succ_le_succ ((Codec.bv_lawful (w := 64) (n := 8) (by decide)).size _)) (by decide))

theorem pageUpdate1001 (a : BitVec 64) : Statement (.pageUpdate1001 a) :=
  length_record (le_trans (Nat.succ_le_succ ((Codec.bv_lawful (w := 64) (n := 8) (by decide)).size _)) (by decide))

theorem pageUpdate1010 (a : BitVec 64) : Statement (.pageUpdate1010 a) :=
  length_record (le_trans (Nat.succ_le_succ ((Codec.bv_lawful (w := 64) (n := 8) (by decide)).size _)) (by decide))

theorem pageUpdate1011 (a : BitVec 64) : Statement (.pageUpdate1011 a) :=
  length_record (le_trans (Nat.succ_le_succ ((Codec.bv_lawful (w := 64) (n := 8) (by decide)).size _)) (by decide))

theorem pageUpdate1100 (a : BitVec 64) : Statement (.pageUpdate1100 a) :=
  length_record (le_trans (Nat.succ_le_succ ((Codec.bv_lawful (w := 64) (n := 8) (by decide)).size _)) (by decide))

theorem pageUpdate1101 (a : BitVec 64) : Statement (.pageUpdate1101 a) :=
  length_record (le_trans (Nat.succ_le_succ ((Codec.bv_lawful (w := 64) (n := 8) (by decide)).size _)) (by decide))

theorem pageUpdate1110 (a : BitVec 64) : Statement (.pageUpdate1110 a) :=
  length_record (le_trans (Nat.succ_le_succ ((Codec.bv_lawful (w := 64) (n := 8) (by decide)).size _)) (by decide))

theorem pageUpdate1111 (a : BitVec 64) : Statement (.pageUpdate1111 a) :=
  length_record (le_trans (Nat.succ_le_succ ((Codec.bv_lawful (w := 64) (n := 8) (by decide)).size _)) (by decide))

theorem aUpdate000 (a : BitVec 64) : Statement (.aUpdate000 a) :=
  length_record (le_trans ((Codec.bv_lawful (w := 64) (n := 8) (by decide)).size _) (by decide))

theorem aUpdate001 (a : BitVec 64) : Statement (.aUpdate001 a) :=
  length_record (le_trans ((Codec.bv_lawful (w := 64) (n := 8) (by decide)).size _) (by decide))

theorem aUpdate010 (a : BitVec 64) : Statement (.aUpdate010 a) :=
  length_record (le_trans ((Codec.bv_lawful (w := 64) (n := 8) (by decide)).size _) (by decide))

theorem aUpdate011 (a : BitVec 64) : Statement (.aUpdate011 a) :=
  length_record (le_trans ((Codec.bv_lawful (w := 64) (n := 8) (by decide)).size _) (by decide))

theorem aUpdate100 (a : BitVec 64) : Statement (.aUpdate100 a) :=
  length_record (le_trans ((Codec.bv_lawful (w := 64) (n := 8) (by decide)).size _) (by decide))

theorem adUpdate101 (a : BitVec 64) : Statement (.adUpdate101 a) :=
  length_record (le_trans ((Codec.bv_lawful (w := 64) (n := 8) (by decide)).size _) (by decide))

theorem adUpdate110 (a : BitVec 64) : Statement (.adUpdate110 a) :=
  length_record (le_trans ((Codec.bv_lawful (w := 64) (n := 8) (by decide)).size _) (by decide))

theorem adUpdate111 (a : BitVec 64) : Statement (.adUpdate111 a) :=
  length_record (le_trans ((Codec.bv_lawful (w := 64) (n := 8) (by decide)).size _) (by decide))

theorem fmtR1 (a : BitVec 8) (b : BitVec 3) : Statement (.fmtR1 a b) :=
  length_record (le_trans (kR1_lawful.size _) (by decide))

theorem fmtP4A4 (a : BitVec 8) : Statement (.fmtP4A4 a) :=
  length_record (le_trans ((Codec.bv_lawful (w := 8) (n := 1) (by decide)).size _) (by decide))

theorem fmtA4P4 (a : BitVec 8) : Statement (.fmtA4P4 a) :=
  length_record (le_trans ((Codec.bv_lawful (w := 8) (n := 1) (by decide)).size _) (by decide))

theorem fmtP8A8 (a : BitVec 16) : Statement (.fmtP8A8 a) :=
  length_record (le_trans ((Codec.bv_lawful (w := 16) (n := 2) (by decide)).size _) (by decide))

theorem fmtA8P8 (a : BitVec 16) : Statement (.fmtA8P8 a) :=
  length_record (le_trans ((Codec.bv_lawful (w := 16) (n := 2) (by decide)).size _) (by decide))

theorem fmtP8 (a : BitVec 8) : Statement (.fmtP8 a) :=
  length_record (le_trans ((Codec.bv_lawful (w := 8) (n := 1) (by decide)).size _) (by decide))

theorem fmtP2 (a : BitVec 8) (b : BitVec 2) : Statement (.fmtP2 a b) :=
  length_record (le_trans (kP2_lawful.size _) (by decide))

theorem fmtYuv422 (a : YuvFormat) (b : BitVec 32) : Statement (.fmtYuv422 a b) :=
  length_record (le_trans (kYuv_lawful.size _) (by decide))

theorem etc1 (a : BitVec 64) (b : Pos) : Statement (.etc1 a b) :=
  length_record (le_trans (kB64_lawful.size _) (by decide))

theorem etc2 (a : BitVec 64) (b : Pos) (c : Bool) : Statement (.etc2 a b c) :=
  length_record (le_trans (kB64F_lawful.size _) (by decide))

theorem eacR11 (a : BitVec 64) (b : Pos) (c : Bool) : Statement (.eacR11 a b c) :=
  length_record (le_trans (kB64F_lawful.size _) (by decide))

theorem etc2Pta (a : BitVec 64) (b : Pos) (c : Bool) : Statement (.etc2Pta a b c) :=
  length_record (le_trans (kB64F_lawful.size _) (by decide))

theorem etc2EacRgba8 (a : BitVec 128) (b : Pos) (c : Bool) : Statement (.etc2EacRgba8 a b c) :=
  length_record (le_trans (kB128F_lawful.size _) (by decide))

theorem eacR8 (a : BitVec 64) (b : Pos) : Statement (.eacR8 a b) :=
  length_record (le_trans (kB64_lawful.size _) (by decide))

theorem eacRg11 (a : BitVec 128) (b : Pos) (c : Bool) : Statement (.eacRg11 a b c) :=
  length_record (le_trans (kB128F_lawful.size _) (by decide))

theorem fxt1 (a : BitVec 128) (b : BitVec 5) : Statement (.fxt1 a b) :=
  length_record (le_trans (kFxt_lawful.size _) (by decide))

theorem fxt1Hi (a : BitVec 128) (b : BitVec 5) : Statement (.fxt1Hi a b) :=
  length_record (le_trans (kFxt_lawful.size _) (by decide))

theorem fxt1Chroma (a : BitVec 128) (b : BitVec 5) : Statement (.fxt1Chroma a b) :=
  length_record (le_trans (kFxt_lawful.size _) (by decide))

theorem fxt1Mixed (a : BitVec 128) (b : BitVec 5) : Statement (.fxt1Mixed a b) :=
  length_record (le_trans (kFxt_lawful.size _) (by decide))

theorem fxt1Alpha (a : BitVec 128) (b : BitVec 5) : Statement (.fxt1Alpha a b) :=
  length_record (le_trans (kFxt_lawful.size _) (by decide))

theorem dxt1 (a : BitVec 64) (b : Pos) (c : Bool) : Statement (.dxt1 a b c) :=
  length_record (le_trans (kB64F_lawful.size _) (by decide))

theorem dxt1Rgb (a : BitVec 64) (b : Pos) (c : Bool) : Statement (.dxt1Rgb a b c) :=
  length_record (le_trans (kB64F_lawful.size _) (by decide))

theorem dxt3 (a : BitVec 128) (b : Pos) : Statement (.dxt3 a b) :=
  length_record (le_trans (kB128_lawful.size _) (by decide))

theorem dxt5 (a : BitVec 128) (b : Pos) : Statement (.dxt5 a b) :=
  length_record (le_trans (kB128_lawful.size _) (by decide))

theorem bc4 (a : BitVec 64) (b : Pos) (c : Bool) : Statement (.bc4 a b c) :=
  length_record (le_trans (kB64F_lawful.size _) (by decide))

theorem bc5 (a : BitVec 128) (b : Pos) (c : Bool) : Statement (.bc5 a b c) :=
  length_record (le_trans (kB128F_lawful.size _) (by decide))

theorem bc6h (a : BitVec 128) (b : Pos) (c : Bool) : Statement (.bc6h a b c) :=
  length_record (le_trans (kB128F_lawful.size _) (by decide))

theorem bc6hMode0 (a : BitVec 128) (b : Pos) (c : Bool) : Statement (.bc6hMode0 a b c) :=
  length_record (le_trans (kB128F_lawful.size _) (by decide))

theorem bc6hMode1 (a : BitVec 128) (b : Pos) (c : Bool) : Statement (.bc6hMode1 a b c) :=
  length_record (le_trans (kB128F_lawful.size _) (by decide))

theorem bc6hMode2 (a : BitVec 128) (b : Pos) (c : Bool) : Statement (.bc6hMode2 a b c) :=
  length_record (le_trans (kB128F_lawful.size _) (by decide))

theorem bc6hMode3 (a : BitVec 128) (b : Pos) (c : Bool) : Statement (.bc6hMode3 a b c) :=
  length_record (le_trans (kB128F_lawful.size _) (by decide))

theorem bc6hMode4 (a : BitVec 128) (b : Pos) (c : Bool) : Statement (.bc6hMode4 a b c) :=
  length_record (le_trans (kB128F_lawful.size _) (by decide))

theorem bc6hMode5 (a : BitVec 128) (b : Pos) (c : Bool) : Statement (.bc6hMode5 a b c) :=
  length_record (le_trans (kB128F_lawful.size _) (by decide))

theorem bc6hMode6 (a : BitVec 128) (b : Pos) (c : Bool) : Statement (.bc6hMode6 a b c) :=
  length_record (le_trans (kB128F_lawful.size _) (by decide))

theorem bc6hMode7 (a : BitVec 128) (b : Pos) (c : Bool) : Statement (.bc6hMode7 a b c) :=
  length_record (le_trans (kB128F_lawful.size _) (by decide))

theorem bc6hMode8 (a : BitVec 128) (b : Pos) (c : Bool) : Statement (.bc6hMode8 a b c) :=
  length_record (le_trans (kB128F_lawful.size _) (by decide))

theorem bc6hMode9 (a : BitVec 128) (b : Pos) (c : Bool) : Statement (.bc6hMode9 a b c) :=
  length_record (le_trans (kB128F_lawful.size _) (by decide))

theorem bc6hMode10 (a : BitVec 128) (b : Pos) (c : Bool) : Statement (.bc6hMode10 a b c) :=
  length_record (le_trans (kB128F_lawful.size _) (by decide))

theorem bc6hMode11 (a : BitVec 128) (b : Pos) (c : Bool) : Statement (.bc6hMode11 a b c) :=
  length_record (le_trans (kB128F_lawful.size _) (by decide))

theorem bc6hMode12 (a : BitVec 128) (b : Pos) (c : Bool) : Statement (.bc6hMode12 a b c) :=
  length_record (le_trans (kB128F_lawful.size _) (by decide))

theorem bc6hMode13 (a : BitVec 128) (b : Pos) (c : Bool) : Statement (.bc6hMode13 a b c) :=
  length_record (le_trans (kB128F_lawful.size _) (by decide))

theorem bc6hUndef10011 (a : BitVec 128) (b : Pos) (c : Bool) : Statement (.bc6hUndef10011 a b c) :=
  length_record (le_trans (kB128F_lawful.size _) (by decide))

theorem bc6hUndef10111 (a : BitVec 128) (b : Pos) (c : Bool) : Statement (.bc6hUndef10111 a b c) :=
  length_record (le_trans (kB128F_lawful.size _) (by decide))

theorem bc6hUndef11011 (a : BitVec 128) (b : Pos) (c : Bool) : Statement (.bc6hUndef11011 a b c) :=
  length_record (le_trans (kB128F_lawful.size _) (by decide))

theorem bc6hUndef11111 (a : BitVec 128) (b : Pos) (c : Bool) : Statement (.bc6hUndef11111 a b c) :=
  length_record (le_trans (kB128F_lawful.size _) (by decide))

theorem bc7 (a : BitVec 128) (b : Pos) (c : Bool) : Statement (.bc7 a b c) :=
  length_record (le_trans (kB128F_lawful.size _) (by decide))

theorem bc7Mode0 (a : BitVec 128) (b : Pos) (c : Bool) : Statement (.bc7Mode0 a b c) :=
  length_record (le_trans (kB128F_lawful.size _) (by decide))

theorem bc7Mode1 (a : BitVec 128) (b : Pos) (c : Bool) : Statement (.bc7Mode1 a b c) :=
  length_record (le_trans (kB128F_lawful.size _) (by decide))

theorem bc7Mode2 (a : BitVec 128) (b : Pos) (c : Bool) : Statement (.bc7Mode2 a b c) :=
  length_record (le_trans (kB128F_lawful.size _) (by decide))

theorem bc7Mode3 (a : BitVec 128) (b : Pos) (c : Bool) : Statement (.bc7Mode3 a b c) :=
  length_record (le_trans (kB128F_lawful.size _) (by decide))

theorem bc7Mode4 (a : BitVec 128) (b : Pos) (c : Bool) : Statement (.bc7Mode4 a b c) :=
  length_record (le_trans (kB128F_lawful.size _) (by decide))

theorem bc7Mode5 (a : BitVec 128) (b : Pos) (c : Bool) : Statement (.bc7Mode5 a b c) :=
  length_record (le_trans (kB128F_lawful.size _) (by decide))

theorem bc7Mode6 (a : BitVec 128) (b : Pos) (c : Bool) : Statement (.bc7Mode6 a b c) :=
  length_record (le_trans (kB128F_lawful.size _) (by decide))

theorem bc7Mode7 (a : BitVec 128) (b : Pos) (c : Bool) : Statement (.bc7Mode7 a b c) :=
  length_record (le_trans (kB128F_lawful.size _) (by decide))

theorem bc7Undef (a : BitVec 128) (b : Pos) (c : Bool) : Statement (.bc7Undef a b c) :=
  length_record (le_trans (kB128F_lawful.size _) (by decide))

theorem astc (a : BitVec 128) (b : BitVec 9) (c : BitVec 4) (d : BitVec 4) (e : BitVec 4) : Statement (.astc a b c d e) :=
  length_record (le_trans (kAstc_lawful.size _) (by decide))

theorem astcHeader (a : BitVec 128) (b : BitVec 5) (c : BitVec 32) : Statement (.astcHeader a b c) :=
  length_record (le_trans (kAstcHead_lawful.size _) (by decide))

theorem bufTyped (a : BitVec 64) (b : BitVec 32) (c : BitVec 32) (d : BitVec 32) : Statement (.bufTyped a b c d) :=
  length_record (le_trans (kTile_lawful.size _) (by decide))

theorem bufRaw (a : BitVec 64) (b : BitVec 64) : Statement (.bufRaw a b) :=
  length_record (le_trans (kRaw_lawful.size _) (by decide))

theorem bufStructured (a : BitVec 64) (b : BitVec 32) (c : BitVec 32) (d : BitVec 32) : Statement (.bufStructured a b c d) :=
  length_record (le_trans (kTile_lawful.size _) (by decide))

theorem surf1D (a : Surf1D) : Statement (.surf1D a) :=
  length_record (le_trans (cSurf1D_lawful.size _) (by decide))

theorem surf2D (a : Surf2D) : Statement (.surf2D a) :=
  length_record (le_trans (cSurf2D_lawful.size _) (by decide))

theorem mcsDecode (a : Samples) (b : BitVec 64) (c : BitVec 4) : Statement (.mcsDecode a b c) :=
  length_record (le_trans (kMcs_lawful.size _) (by decide))

theorem surfQuilt (a : BitVec 32) (b : BitVec 32) (c : BitVec 32) (d : BitVec 32) (e : BitVec 32) : Statement (.surfQuilt a b c d e) :=
  length_record (le_trans (kQuilt_lawful.size _) (by decide))

theorem surfCube (a : BitVec 32) (b : BitVec 3) : Statement (.surfCube a b) :=
  length_record (le_trans (kCube_lawful.size _) (by decide))

theorem surf3D (a : Surf2D) : Statement (.surf3D a) :=
  length_record (le_trans (cSurf2D_lawful.size _) (by decide))

theorem surfPad (a : SurfPad) : Statement (.surfPad a) :=
  length_record (le_trans (cSurfPad_lawful.size _) (by decide))

end Sys2Proof.Laws.RecordLength
end

