-- ==== Sys2Proof/Laws/Walks.lean ====
section
/-! SUPPORT. A walk made without the caches only reads: a global or legacy walk, and an advanced one whose context does
not manage Accessed and Dirty bits, leaves the state as it is. -/
namespace Sys2Proof.Machine

@[simp] theorem readEntryPlain_uncached (s : State) (who : Option Engine) (a : Nat) (k : EntryKind) :
    readEntryPlain s .memory who a k = (memReadQ s a, s) := rfl

theorem readEntryIa_uncached (s : State) (who : Option Engine) (c : Ctx) (q : RightsCtl) (p a : Nat) (k : EntryKind)
    (h : c.adEnable = false) : readEntryIa s .memory who c q p a k = (some (memReadQ s a), s) := by
  simp [readEntryIa, h]

@[simp] theorem ggttWalk_uncached (s : State) (who : Option Engine) (va : Nat) : (ggttWalk s .memory who va).2 = s := by
  simp [ggttWalk, apply_ite Prod.snd]

@[simp] theorem legacyPt_uncached (s : State) (who : Option Engine) (c : Ctx) (p : QWord) (va : Nat) (a : Acc) :
    (legacyPt s .memory who c p va a).2 = s := by
  simp [legacyPt, apply_ite Prod.snd]

@[simp] theorem ppgtt32Walk_uncached (s : State) (who : Option Engine) (c : Ctx) (va : Nat) (a : Acc) :
    (ppgtt32Walk s .memory who c va a).2 = s := by
  simp [ppgtt32Walk, apply_ite Prod.snd]

@[simp] theorem legacy48Pd_uncached (s : State) (who : Option Engine) (c : Ctx) (p : QWord) (va : Nat) (a : Acc) :
    (legacy48Pd s .memory who c p va a).2 = s := by
  unfold legacy48Pd
  dsimp only [readEntryPlain_uncached]
  generalize memReadQ s _ = e
  cases entryP e <;> cases entryPS e <;> cases s.par.gttCacheEnable <;> simp

@[simp] theorem legacy48Pdp_uncached (s : State) (who : Option Engine) (c : Ctx) (p : QWord) (va : Nat) (a : Acc) :
    (legacy48Pdp s .memory who c p va a).2 = s := by
  unfold legacy48Pdp
  dsimp only [readEntryPlain_uncached]
  generalize memReadQ s _ = e
  cases entryP e <;> cases entryPS e <;> cases s.par.gttCacheEnable <;> simp

@[simp] theorem ppgtt48Walk_uncached (s : State) (who : Option Engine) (c : Ctx) (va : Nat) (a : Acc) :
    (ppgtt48Walk s .memory who c va a).2 = s := by
  simp [ppgtt48Walk, apply_ite Prod.snd]

theorem iaPt_uncached (s : State) (who : Option Engine) (c : Ctx) (q : RightsCtl) (r : Rights) (p : QWord) (va : Nat)
    (h : c.adEnable = false) : (iaPt s .memory who c q r p va).2 = s := by
  simp only [iaPt, readEntryIa_uncached _ _ _ _ _ _ _ h]
  repeat' split
  all_goals rfl

theorem iaPd_uncached (s : State) (who : Option Engine) (c : Ctx) (q : RightsCtl) (r : Rights) (p : QWord) (va : Nat)
    (h : c.adEnable = false) : (iaPd s .memory who c q r p va).2 = s := by
  simp only [iaPd, readEntryIa_uncached _ _ _ _ _ _ _ h]
  repeat' split
  all_goals first | exact iaPt_uncached _ _ _ _ _ _ _ h | rfl

theorem iaPdp_uncached (s : State) (who : Option Engine) (c : Ctx) (q : RightsCtl) (r : Rights) (p : QWord) (va : Nat)
    (h : c.adEnable = false) : (iaPdp s .memory who c q r p va).2 = s := by
  simp only [iaPdp, readEntryIa_uncached _ _ _ _ _ _ _ h]
  repeat' split
  all_goals first | exact iaPd_uncached _ _ _ _ _ _ _ h | rfl

theorem ia32eWalk_uncached (s : State) (who : Option Engine) (c : Ctx) (va : Nat) (a : Acc)
    (h : c.adEnable = false) : (ia32eWalk s .memory who c va a).2 = s := by
  simp only [ia32eWalk, readEntryIa_uncached _ _ _ _ _ _ _ h]
  repeat' split
  all_goals first | exact iaPdp_uncached _ _ _ _ _ _ _ h | rfl

/-- Stage 2 of a 48-bit legacy context, as a TR-TT table read of a walk operation makes it. -/
theorem stage2_legacy48_uncached (s : State) (who : Option Engine) (k : Client) (c : Option Ctx) (va : Nat) (a : Acc) :
    (stage2 s false who k c .legacy48 va a).2 = s := by
  simp only [stage2, walkAndFill, walkFrom, fillTlb, walkMode, Bool.false_eq_true, if_false]
  repeat' split
  all_goals simp_all

/-! What such a walk answers depends on memory and the parameters alone. -/

theorem memReadQ_congr {s t : State} (h : s.mem = t.mem) (a : Nat) : memReadQ s a = memReadQ t a := by
  simp only [memReadQ, memRead, h]

theorem legacyPt_fst {s t : State} (h : s.mem = t.mem) (k : s.par = t.par) (who : Option Engine) (c : Ctx) (p : QWord)
    (va : Nat) (a : Acc) : (legacyPt s .memory who c p va a).1 = (legacyPt t .memory who c p va a).1 := by
  unfold legacyPt
  dsimp only [readEntryPlain_uncached]
  simp only [k, memReadQ_congr h]
  repeat' split
  all_goals rfl

theorem legacy48Pd_fst {s t : State} (h : s.mem = t.mem) (k : s.par = t.par) (who : Option Engine) (c : Ctx) (p : QWord)
    (va : Nat) (a : Acc) : (legacy48Pd s .memory who c p va a).1 = (legacy48Pd t .memory who c p va a).1 := by
  unfold legacy48Pd
  dsimp only [readEntryPlain_uncached]
  simp only [k, memReadQ_congr h]
  generalize memReadQ t _ = e
  cases entryP e <;> cases entryPS e <;> cases t.par.gttCacheEnable <;> simp [legacyPt_fst h k]

theorem legacy48Pdp_fst {s t : State} (h : s.mem = t.mem) (k : s.par = t.par) (who : Option Engine) (c : Ctx)
    (p : QWord) (va : Nat) (a : Acc) :
    (legacy48Pdp s .memory who c p va a).1 = (legacy48Pdp t .memory who c p va a).1 := by
  unfold legacy48Pdp
  dsimp only [readEntryPlain_uncached]
  simp only [k, memReadQ_congr h]
  generalize memReadQ t _ = e
  cases entryP e <;> cases entryPS e <;> cases t.par.gttCacheEnable <;> simp [legacy48Pd_fst h k]

theorem ppgtt48Walk_fst {s t : State} (h : s.mem = t.mem) (k : s.par = t.par) (who : Option Engine) (c : Ctx) (va : Nat)
    (a : Acc) : (ppgtt48Walk s .memory who c va a).1 = (ppgtt48Walk t .memory who c va a).1 := by
  unfold ppgtt48Walk
  dsimp only [readEntryPlain_uncached]
  simp only [k, memReadQ_congr h]
  generalize memReadQ t _ = e
  by_cases hv : va ≥ 2 ^ 48
  · rw [if_pos hv, if_pos hv]
  · rw [if_neg hv, if_neg hv]
    cases entryP e <;> simp [legacy48Pdp_fst h k]

/-- How a walk made in memory ends depends on its result alone. -/
theorem fillTlb_memory_fst {r r' : WalkRes × State} (h : r.1 = r'.1) (who : Option Engine) (k : Client)
    (c : Option Ctx) (g : Bool) (va : Nat) (a : Acc) :
    (fillTlb r .memory who k c g va a).1 = (fillTlb r' .memory who k c g va a).1 := by
  simp only [fillTlb, h]
  split <;> rfl

theorem stage2_legacy48_fst {s t : State} (h : s.mem = t.mem) (k : s.par = t.par) (who : Option Engine) (cl : Client)
    (c : Option Ctx) (va : Nat) (a : Acc) :
    (stage2 s false who cl c .legacy48 va a).1 = (stage2 t false who cl c .legacy48 va a).1 :=
  fillTlb_memory_fst (ppgtt48Walk_fst h k _ _ _ _) _ _ _ _ _ _

/-- The counter of free values and the controls of the last table read do not change how a table read ends. -/
theorem stage2_legacy48_with (s : State) (who : Option Engine) (cl : Client) (c : Option Ctx) (va : Nat) (a : Acc)
    (n : Nat) (w : Option MemControls) (r : Trans) (h : (stage2 s false who cl c .legacy48 va a).1 = r) :
    stage2 { s with freeCount := n, walkerCtl := w } false who cl c .legacy48 va a =
      (r, { s with freeCount := n, walkerCtl := w }) := by
  have h2 := stage2_legacy48_uncached { s with freeCount := n, walkerCtl := w } who cl c va a
  have h1 := stage2_legacy48_fst (s := { s with freeCount := n, walkerCtl := w }) (t := s) rfl rfl who cl c va a
  rw [h] at h1
  generalize stage2 { s with freeCount := n, walkerCtl := w } false who cl c .legacy48 va a = x at h1 h2
  obtain ⟨y, z⟩ := x
  cases h1
  cases h2
  rfl

end Sys2Proof.Machine
end

