-- ==== Sys2Proof/Tests/Slice0.lean ====
section
/-! SUPPORT. Tests: ill-formed operations, records written out byte by byte, the vectors of spec/95_test_vectors.md,
and for every statement with hypotheses a state and operands that meet them (the witnesses). -/
namespace Sys2Proof.Tests

open Machine

set_option Elab.async false

/-! ### Helpers -/

/-- Bytes in address order as a number. -/
def le (bs : List Nat) : Nat := leNat (bs.map (BitVec.ofNat 8))

/-- A 64-bit block from its bytes. -/
def b64 (bs : List Nat) : BitVec 64 := BitVec.ofNat 64 (le bs)

/-- A 128-bit block from its bytes. -/
def b128 (bs : List Nat) : BitVec 128 := BitVec.ofNat 128 (le bs)

/-- A record: operand bytes, zeros, member, family. -/
def raw (f k : Nat) (bs : List Nat) : List Byte :=
  bs.map (BitVec.ofNat 8) ++ List.replicate (62 - bs.length) 0 ++ [BitVec.ofNat 8 k, BitVec.ofNat 8 f]

/-- The operation a record names. -/
def read (bs : List Byte) : Option Instr :=
  match decode bs with
  | .ok i => some i
  | .error _ => none

/-- The operations of a family with the given operand bytes. -/
def readAll (f n : Nat) (bs : List Nat) : List (Option Instr) := (List.range n).map (fun k => read (raw f k bs))

/-- The state after an operation. -/
def after (s : State) (i : Instr) : Option State :=
  match exec i s with
  | .next t => some t
  | .fault _ => none
  | .refused _ => none

/-- What an operation answers. -/
def got (s : State) (i : Instr) : Option Result := (after s i).map (fun t => t.out)

/-- A texel of four 8-bit channels. -/
def px (r g b a : Nat) : Option Result := some (.texel ⟨.unorm r 255, .unorm g 255, .unorm b 255, .unorm a 255⟩)

/-- A texel of three 8-bit channels and alpha 1.0. -/
def px1 (r g b : Nat) : Option Result := some (.texel ⟨.unorm r 255, .unorm g 255, .unorm b 255, .unorm 1 1⟩)

/-- Row `r` of a 4x4 block. -/
def row4 (r : BitVec 2) (f : Pos → Instr) : List (Option Result) :=
  [0, 1, 2, 3].map (fun c => got .reset (f ⟨r, c⟩))

/-- The machine after reset with QWords stored. -/
def withQ : List (Nat × Nat) → State → State
  | [], s => s
  | (a, v) :: qs, s => withQ qs (memWriteQ s a (BitVec.ofNat 64 v))

/-! ### Ill-formed operations are refused, by name -/

/-- A 2D surface that meets every requirement (R1234). -/
def surf : Surf2D :=
  { base := 0, width := 64, height := 64, pitch := 512, qpitch := 64, tile := .tileY, tr := .none, bpe := .b32, p := 1,
    q := 1, i := 4, j := 4, k := 4, tail := 15, lod := 0, mips := 15, samples := .s1, interleaved := false,
    inTail := false, xoff := 0, yoff := 0, r := 0, u := 40, v := 37, ss := 0 }

/-- A 1D surface (R1214). -/
def line : Surf1D :=
  { base := 0, width := 100, qpitch := 320, bpe := .b32, tr := .none, tail := 15, lod := 2, mips := 6, inTail := false,
    r := 1, u := 7 }

theorem test_illformed_modeBits :
    (Instr.fxt1Hi (1 <<< 127) 0).check = some .modeBits ∧ (Instr.bc6hMode10 2 ⟨0, 0⟩ false).check = some .modeBits ∧
    (Instr.bc7Mode6 0x42 ⟨0, 0⟩ false).check = some .modeBits ∧
    (Instr.bc6hUndef10011 0x17 ⟨0, 0⟩ false).check = some .modeBits := by decide +kernel

/-- Where the spec states no result for some operands the operation still runs, and takes a free value (log entry 33):
the counter of free values moves, and nothing stops. -/
theorem test_unstated_operands_run :
    [Instr.tileFence 0x1000 0x2000 2 .x, .tileFence 0x2000 0x1000 0 .x, .mcsDecode .s4 0 4, .mcsDecode .s1 0 0,
      .surf2D { surf with ss := 1 }, .surfCube 0 6, .bufTyped 0 2049 0 0, .bufStructured 0 64 3 64,
      .surf2D { surf with p := 0 }, .surf2D { surf with tr := .ys, tile := .tileX }, .surf2D { surf with pitch := 500 },
      .surf2D { surf with lod := 7, mips := 6 }, .surf1D { line with tr := .yf, tail := 0, lod := 12, mips := 13 },
      .surfPad { width := 1, height := 1, i := 0, j := 1, q := 1, cls := .plain, linear := false, cube := false,
                 simple := false }].all (fun i =>
      i.check.isNone && ((after .reset i).map (fun t => decide (0 < t.freeCount))).getD false) = true := by
  decide +kernel

/-! ### Words and records -/

/-- The opcode bytes 1100_kkkk (R751) with an address after them. -/
theorem test_decode_atomics :
    (List.range 16).map (fun k => read (raw 0 0 [192 + k, 0x20, 0, 0x40, 0, 0, 0, 0, 0])) =
      [some (.pageUpdate0000 0x400020), some (.pageUpdate0001 0x400020), some (.pageUpdate0010 0x400020),
        some (.pageUpdate0011 0x400020), some (.pageUpdate0100 0x400020), some (.pageUpdate0101 0x400020),
        some (.pageUpdate0110 0x400020), some (.pageUpdate0111 0x400020), some (.pageUpdate1000 0x400020),
        some (.pageUpdate1001 0x400020), some (.pageUpdate1010 0x400020), some (.pageUpdate1011 0x400020),
        some (.pageUpdate1100 0x400020), some (.pageUpdate1101 0x400020), some (.pageUpdate1110 0x400020),
        some (.pageUpdate1111 0x400020)] := by decide +kernel

/-- The mode values of R1001 in bits 4:0, and of R1042 in bits 7:0, as bare words. -/
theorem test_decode_mode_words :
    [0b00000, 0b00001, 0b00010, 0b00110, 0b01010, 0b01110, 0b10010, 0b10110, 0b11010, 0b11110, 0b00011, 0b00111,
      0b01011, 0b01111, 0b10011, 0b10111, 0b11011, 0b11111].map (decodeTableWord 8) =
      [some (.bc6hMode0 0 ⟨0, 0⟩ false), some (.bc6hMode1 1 ⟨0, 0⟩ false), some (.bc6hMode2 2 ⟨0, 0⟩ false),
        some (.bc6hMode3 6 ⟨0, 0⟩ false), some (.bc6hMode4 10 ⟨0, 0⟩ false), some (.bc6hMode5 14 ⟨0, 0⟩ false),
        some (.bc6hMode6 18 ⟨0, 0⟩ false), some (.bc6hMode7 22 ⟨0, 0⟩ false), some (.bc6hMode8 26 ⟨0, 0⟩ false),
        some (.bc6hMode9 30 ⟨0, 0⟩ false), some (.bc6hMode10 3 ⟨0, 0⟩ false), some (.bc6hMode11 7 ⟨0, 0⟩ false),
        some (.bc6hMode12 11 ⟨0, 0⟩ false), some (.bc6hMode13 15 ⟨0, 0⟩ false),
        some (.bc6hUndef10011 19 ⟨0, 0⟩ false), some (.bc6hUndef10111 23 ⟨0, 0⟩ false),
        some (.bc6hUndef11011 27 ⟨0, 0⟩ false), some (.bc6hUndef11111 31 ⟨0, 0⟩ false)] ∧
    [0b00100, 0b01000, 0b10000, 0b100000, 0b1000000, 0b10000000].map (decodeTableWord 8) =
      [some (.bc7Mode2 4 ⟨0, 0⟩ false), some (.bc7Mode3 8 ⟨0, 0⟩ false), some (.bc7Mode4 16 ⟨0, 0⟩ false),
        some (.bc7Mode5 32 ⟨0, 0⟩ false), some (.bc7Mode6 64 ⟨0, 0⟩ false), some (.bc7Mode7 128 ⟨0, 0⟩ false)] := by
  decide +kernel

/-- FXT1 blocks with the mode bits of R925 at 127:125, in records. -/
theorem test_decode_fxt1 :
    read (raw 6 0 (List.replicate 15 0 ++ [0x40, 9])) = some (.fxt1 (0x40 <<< 120) 9) ∧
    read (raw 6 1 (List.replicate 15 0 ++ [0x20, 9])) = some (.fxt1Hi (0x20 <<< 120) 9) ∧
    read (raw 6 2 (List.replicate 15 0 ++ [0x40, 9])) = some (.fxt1Chroma (0x40 <<< 120) 9) ∧
    read (raw 6 3 (List.replicate 15 0 ++ [0x80, 9])) = some (.fxt1Mixed (0x80 <<< 120) 9) ∧
    read (raw 6 4 (List.replicate 15 0 ++ [0x60, 9])) = some (.fxt1Alpha (0x60 <<< 120) 9) := by decide +kernel

/-- Tile functions: base, pitch, X, Y (R419); x, y (R427); x, y, sample (R430). -/
theorem test_decode_tiling :
    readAll 1 4 [0, 0, 1, 0, 0, 0, 0, 0, 2, 0, 0, 0, 0x58, 2, 0, 0, 10, 0, 0, 0] =
      [some (.tileLinear 0x10000 2 600 10), some (.tileX 0x10000 2 600 10), some (.tileY 0x10000 2 600 10),
        some (.tileW 0x10000 2 600 10)] ∧
    read (raw 1 4 [0x58, 0x2A, 0x10, 0, 0, 0, 0, 0, 0, 0, 0x10, 0, 0, 0, 0, 0, 2, 0, 0, 0, 0]) =
      some (.tileFence 0x102A58 0x100000 2 .x) ∧
    (readAll 1 23 [0x40, 2, 0x21, 0]).drop 5 =
      [some (.tileYs64 0x240 0x21), some (.tileYs16 0x240 0x21), some (.tileYs8 0x240 0x21),
        some (.tileYsMsaa2_64 0x240 0x21 0), some (.tileYsMsaa2_16 0x240 0x21 0), some (.tileYsMsaa2_8 0x240 0x21 0),
        some (.tileYsMsaa4_64 0x240 0x21 0), some (.tileYsMsaa4_16 0x240 0x21 0), some (.tileYsMsaa4_8 0x240 0x21 0),
        some (.tileYsMsaa8_64 0x240 0x21 0), some (.tileYsMsaa8_16 0x240 0x21 0), some (.tileYsMsaa8_8 0x240 0x21 0),
        some (.tileYsMsaa16_64 0x240 0x21 0), some (.tileYsMsaa16_16 0x240 0x21 0),
        some (.tileYsMsaa16_8 0x240 0x21 0), some (.tileYf64 0x240 0x21), some (.tileYf16 0x240 0x21),
        some (.tileYf8 0x240 0x21)] := by decide +kernel

/-- Walks (engine, client, MOCS, kind, fetch, address), invalidation, HDC messages. -/
theorem test_decode_walks :
    read (raw 2 0 [0x78, 0x56, 0x34, 0x12, 0, 0xF0, 0, 0]) = some (.trttWalk 0xF00012345678) ∧
    read (raw 2 1 [1, 4, 2, 0xBC, 0x3A, 0x12]) = some (.ggttWalk (some .bcs) .write 0x123ABC) ∧
    [2, 3, 4].map (fun k => read (raw 2 k [1, 3, 5, 3, 0x23, 0x31, 0x55, 0x80])) =
      [some (.ppgtt32Walk .vcs0 .sampler 5 .atomic 0x80553123), some (.ppgtt48Walk .vcs0 .sampler 5 .atomic 0x80553123),
        some (.ia32eWalk .vcs0 .sampler 5 .atomic 0x80553123)] ∧
    read (raw 2 5 [1, 1, 0x12, 0, 0, 4, 6, 8, 8, 0, 1, 0, 1]) =
      some (.tlbInvalidate (.page 0x12 0x8080604) { pwc := true, pasidCache := false, contextCache := true }) ∧
    read (raw 2 6 [1, 0, 2, 4, 6, 8, 8, 0, 1, 0x5A, 1]) =
      some (.hdcPageReq { valid := true, slice := 0, hdc := 2, vpage := 0x8080604, write := true, tracking := 0x5A,
                          faultable := true }) ∧
    read (raw 2 7 [1, 0, 0, 5, 0, 1, 0, 2, 1, 0, 4, 0x5A, 1]) =
      some (.hdcPageResp { valid := true, pa := 0x50000, write := true, slice := 0, hdc := 2, d := true,
                           code := .noFault, memType := .wb, tracking := 0x5A, mode := .halt }) ∧
    read (raw 2 8 [1, 1, 0, 2]) = some (.hdcTlbInv (.ack 0 2)) := by decide +kernel

/-- The un-opcoded atomics and the simple formats. -/
theorem test_decode_updates_and_formats :
    readAll 3 8 [0x20, 0, 0x40] =
      [some (.aUpdate000 0x400020), some (.aUpdate001 0x400020), some (.aUpdate010 0x400020),
        some (.aUpdate011 0x400020), some (.aUpdate100 0x400020), some (.adUpdate101 0x400020),
        some (.adUpdate110 0x400020), some (.adUpdate111 0x400020)] ∧
    readAll 4 8 [3, 2] =
      [some (.fmtR1 3 2), none, none, some (.fmtP8A8 0x203), some (.fmtA8P8 0x203), none, some (.fmtP2 3 2),
        some (.fmtYuv422 .swapY 2)] ∧
    [1, 2, 5].map (fun k => read (raw 4 k [0xC3])) =
      [some (.fmtP4A4 0xC3), some (.fmtA4P4 0xC3), some (.fmtP8 0xC3)] := by decide +kernel

/-- The block formats: the block's bytes in address order, row, column, format flag. -/
theorem test_decode_blocks :
    [0, 5].map (fun k => read (raw 5 k [1, 2, 3, 4, 5, 6, 7, 8, 1, 3])) =
      [some (.etc1 0x0807060504030201 ⟨1, 3⟩), some (.eacR8 0x0807060504030201 ⟨1, 3⟩)] ∧
    [1, 2, 3].map (fun k => read (raw 5 k [1, 2, 3, 4, 5, 6, 7, 8, 1, 3, 1])) =
      [some (.etc2 0x0807060504030201 ⟨1, 3⟩ true), some (.eacR11 0x0807060504030201 ⟨1, 3⟩ true),
        some (.etc2Pta 0x0807060504030201 ⟨1, 3⟩ true)] ∧
    [4, 6].map (fun k => read (raw 5 k [1, 0, 0, 0, 0, 0, 0, 0, 2, 0, 0, 0, 0, 0, 0, 0, 1, 3])) =
      [some (.etc2EacRgba8 0x20000000000000001 ⟨1, 3⟩ false), some (.eacRg11 0x20000000000000001 ⟨1, 3⟩ false)] ∧
    [0, 1, 4].map (fun k => read (raw 7 k [1, 2, 3, 4, 5, 6, 7, 8, 1, 3, 1])) =
      [some (.dxt1 0x0807060504030201 ⟨1, 3⟩ true), some (.dxt1Rgb 0x0807060504030201 ⟨1, 3⟩ true),
        some (.bc4 0x0807060504030201 ⟨1, 3⟩ true)] ∧
    [2, 3, 5].map (fun k => read (raw 7 k [1, 0, 0, 0, 0, 0, 0, 0, 2, 0, 0, 0, 0, 0, 0, 0, 1, 3])) =
      [some (.dxt3 0x20000000000000001 ⟨1, 3⟩), some (.dxt5 0x20000000000000001 ⟨1, 3⟩),
        some (.bc5 0x20000000000000001 ⟨1, 3⟩ false)] ∧
    read (raw 8 0 (List.replicate 16 0 ++ [1, 3, 1])) = some (.bc6h 0 ⟨1, 3⟩ true) ∧
    [0, 9].map (fun k => read (raw 9 k (List.replicate 16 0 ++ [1, 3, 1]))) =
      [some (.bc7 0 ⟨1, 3⟩ true), some (.bc7Undef 0 ⟨1, 3⟩ true)] ∧
    read (raw 9 1 (1 :: List.replicate 15 0 ++ [1, 3, 1])) = some (.bc7Mode0 1 ⟨1, 3⟩ true) ∧
    read (raw 9 2 (2 :: List.replicate 15 0 ++ [1, 3, 1])) = some (.bc7Mode1 2 ⟨1, 3⟩ true) := by decide +kernel

/-- ASTC and the surface layout. -/
theorem test_decode_astc_and_layout :
    read (raw 10 0 (0x42 :: List.replicate 15 0 ++ [0, 1, 1, 2, 0])) = some (.astc 0x42 0x100 1 2 0) ∧
    read (raw 10 1 (List.replicate 16 6 ++ [1, 7])) = some (.astcHeader 0x06060606060606060606060606060606 1 7) ∧
    read (raw 11 0 [0, 16, 0, 0, 0, 0, 0, 0, 24, 0, 0, 0, 5]) = some (.bufTyped 0x1000 24 5 0) ∧
    read (raw 11 1 [0, 16, 0, 0, 0, 0, 0, 0, 0x34, 0x12]) = some (.bufRaw 0x1000 0x1234) ∧
    read (raw 11 2 [0, 16, 0, 0, 0, 0, 0, 0, 64, 0, 0, 0, 3, 0, 0, 0, 8]) = some (.bufStructured 0x1000 64 3 8) ∧
    read (raw 11 3 [0, 0, 0, 0, 0, 0, 0, 0, 100, 0, 0, 0, 64, 1, 0, 0, 2, 0, 15, 2, 6, 0, 1, 0, 0, 0, 7]) =
      some (.surf1D line) ∧
    [4, 8].map (fun k => read (raw 11 k [0, 0, 0, 0, 0, 0, 0, 0, 64, 0, 0, 0, 64, 0, 0, 0, 0, 2, 0, 0, 64, 0, 0, 0, 2, 0,
      2, 1, 1, 4, 0, 4, 0, 4, 0, 15, 0, 15, 0, 0, 0, 0, 0, 0, 0, 0, 0, 0, 0, 0, 0, 0, 0, 40, 0, 0, 0, 37])) =
      [some (.surf2D surf), some (.surf3D surf)] ∧
    read (raw 11 5 [2, 0xD9, 0, 0, 0, 0, 0, 0, 0, 3]) = some (.mcsDecode .s4 0xD9 3) ∧
    read (raw 11 6 [4, 0, 0, 0, 2, 0, 0, 0, 3, 0, 0, 0, 1, 0, 0, 0, 1]) = some (.surfQuilt 4 2 3 1 1) ∧
    read (raw 11 7 [2, 0, 0, 0, 3]) = some (.surfCube 2 3) ∧
    read (raw 11 9 [15, 0, 0, 0, 10, 0, 0, 0, 4, 0, 2, 0, 1, 0, 0, 1]) =
      some (.surfPad { width := 15, height := 10, i := 4, j := 2, q := 1, cls := .plain, linear := false, cube := true,
                       simple := false }) := by decide +kernel

/-- Why bytes are no operation. -/
def why (bs : List Byte) : Option DecodeError :=
  match decode bs with
  | .ok _ => none
  | .error e => some e

/-- Bytes that are no operation are refused by name. -/
theorem test_decode_refuses :
    why [] = some .notRecord ∧ why (raw 12 0 []) = some .unknownFamily ∧ why (raw 1 23 []) = some .unknownMember ∧
    why (raw 2 1 [2]) = some .badField ∧ why (raw 1 5 [0, 0, 0, 0, 1]) = some .badPadding ∧
    why (raw 9 7 (List.replicate 16 0)) = some (.illFormed .modeBits) := by decide +kernel

/-! ### Vectors of spec/95_test_vectors.md: tiling (section 2.1) -/

/-- The answer of an operation after reset. -/
def ans (i : Instr) : Option Result := got .reset i

/-- The offset a tile operation answers. -/
def off (n : Nat) : Option Result := some (.offset (BitVec.ofNat 16 n))

/-- An address answer. -/
def addr (n : Nat) : Option Result := some (.address n)

theorem test_tile_linear_and_x :
    ans (.tileLinear 0x10000 1024 600 10) = addr 0x12A58 ∧ ans (.tileX 0 2 600 10) = addr 13400 ∧
    ans (.tileX 0 2 0 8) = addr 8192 ∧ ans (.tileX 0 2 512 0) = addr 4096 ∧ ans (.tileX 0 1 511 7) = addr 4095 ∧
    ans (.tileX 0 2 1023 15) = addr 16383 := by decide +kernel

theorem test_tile_y_and_w :
    ans (.tileY 0 2 200 40) = addr 14472 ∧ ans (.tileY 0 2 128 0) = addr 4096 ∧ ans (.tileY 0 2 0 32) = addr 8192 ∧
    ans (.tileY 0 1 127 31) = addr 4095 ∧ ans (.tileY 0 1 16 1) = addr 0x210 ∧
    ans (.tileW 0 2 70 70) = addr 12348 := by decide +kernel

theorem test_tile_fence : ans (.tileFence (0x100000 + 10840) 0x100000 2 .x) = addr 0x103458 := by decide +kernel

theorem test_tile_misaligned : exec (.tileX 8 1 0 0) .reset = .refused .surfaceMisaligned := by rfl

theorem test_tile_ys :
    ans (.tileYs64 0x240 0x21) = off 0xC210 ∧ ans (.tileYs64 0x3FF 0) = off 0xAACF ∧
    ans (.tileYs64 0 0x3F) = off 0x5530 ∧ ans (.tileYs16 0x50 9) = off 0x990 ∧ ans (.tileYs16 0x1FF 0) = off 0xAA8F ∧
    ans (.tileYs16 0 0x7F) = off 0x5570 ∧ ans (.tileYs8 0x11 0x20) = off 0x601 ∧ ans (.tileYs8 0xFF 0) = off 0xAA0F ∧
    ans (.tileYs8 0 0xFF) = off 0x55F0 := by decide +kernel

theorem test_tile_ys_msaa2_and_4 :
    ans (.tileYsMsaa2_64 0x100 4 1) = off 0xA100 ∧ ans (.tileYsMsaa2_16 0x10 0x40 1) = off 0xC080 ∧
    ans (.tileYsMsaa2_16 0xF0 0 0) = off 0x2A80 ∧ ans (.tileYsMsaa2_8 0x40 1 0) = off 0x2010 ∧
    ans (.tileYsMsaa2_8 0x7F 0xFF 1) = off 0xFFFF ∧ ans (.tileYsMsaa4_64 0x80 0x10 2) = off 0x9800 ∧
    ans (.tileYsMsaa4_64 0 0 3) = off 0xC000 ∧ ans (.tileYsMsaa4_16 0x20 8 1) = off 0x4300 ∧
    ans (.tileYsMsaa4_8 0x20 0x40 0) = off 0x1800 ∧ ans (.tileYsMsaa4_8 0x7F 0x7F 3) = off 0xFFFF := by
  decide +kernel

theorem test_tile_ys_msaa8_and_16 :
    ans (.tileYsMsaa8_64 0x80 0x10 5) = off 0xB800 ∧ ans (.tileYsMsaa8_64 0 0 7) = off 0xE000 ∧
    ans (.tileYsMsaa8_16 0x40 0x20 1) = off 0x3800 ∧ ans (.tileYsMsaa8_16 0x70 0 0) = off 0xA80 ∧
    ans (.tileYsMsaa8_8 0x10 0x1F 0) = off 0x3F0 ∧ ans (.tileYsMsaa8_8 0x3F 0x7F 7) = off 0xFFFF ∧
    ans (.tileYsMsaa16_64 0xF 3 9) = off 0x903F ∧ ans (.tileYsMsaa16_64 0 0 15) = off 0xF000 ∧
    ans (.tileYsMsaa16_16 0x24 0x11 2) = off 0x2614 ∧ ans (.tileYsMsaa16_16 0x70 0 0) = off 0xA80 ∧
    ans (.tileYsMsaa16_8 0x20 0x20 1) = off 0x1C00 ∧ ans (.tileYsMsaa16_8 0x3F 0x3F 15) = off 0xFFFF := by
  decide +kernel

theorem test_tile_yf :
    ans (.tileYf64 0x90 5) = off 0x950 ∧ ans (.tileYf64 0xFF 0) = off 0xACF ∧ ans (.tileYf64 0 0xF) = off 0x530 ∧
    ans (.tileYf16 0x24 0x11) = off 0x614 ∧ ans (.tileYf16 0x7F 0) = off 0xA8F ∧ ans (.tileYf16 0 0x1F) = off 0x570 ∧
    ans (.tileYf8 0x20 0x20) = off 0xC00 ∧ ans (.tileYf8 0x3F 0) = off 0xA0F ∧ ans (.tileYf8 0 0x3F) = off 0x5F0 := by
  decide +kernel

/-! ### Atomics (section 2.4) -/

/-- The value an update leaves in a QWord. -/
def upd (f : BitVec 64 → Instr) (v : Nat) : Option Result := got (withQ [(0x400020, v)] .reset) (f 0x400020)

/-- Old and new value. -/
def oldNew (a b : Nat) : Option Result := some (.qword (BitVec.ofNat 64 a) (BitVec.ofNat 64 b))

theorem test_update_final :
    upd .pageUpdate0000 0x50000007 = oldNew 0x50000007 0x50000027 ∧
    upd .pageUpdate0000 0x50000006 = oldNew 0x50000006 0x50000006 ∧
    upd .pageUpdate0001 0x50000005 = oldNew 0x50000005 0x50000065 ∧
    upd .pageUpdate0010 0x50000007 = oldNew 0x50000007 0x50000427 ∧
    upd .pageUpdate0011 0x50000005 = oldNew 0x50000005 0x50000465 ∧
    upd .pageUpdate0100 0x50000005 = oldNew 0x50000005 0x50000025 ∧
    upd .pageUpdate0101 0x50000007 = oldNew 0x50000007 0x50000067 ∧
    upd .pageUpdate0101 0x50000005 = oldNew 0x50000005 0x50000025 ∧
    upd .pageUpdate0110 0x50000005 = oldNew 0x50000005 0x50000425 ∧
    upd .pageUpdate0111 0x50000007 = oldNew 0x50000007 0x50000467 ∧
    upd .pageUpdate0111 0x50000005 = oldNew 0x50000005 0x50000425 := by decide +kernel

theorem test_update_intermediate :
    upd .pageUpdate1000 0x40000087 = oldNew 0x40000087 0x400000A7 ∧
    upd .pageUpdate1001 0x40000007 = oldNew 0x40000007 0x40000027 ∧
    upd .pageUpdate1001 0x40000085 = oldNew 0x40000085 0x400000E5 ∧
    upd .pageUpdate1010 0x40000007 = oldNew 0x40000007 0x40000427 ∧
    upd .pageUpdate1011 0x40000007 = oldNew 0x40000007 0x40000427 ∧
    upd .pageUpdate1011 0x40000087 = oldNew 0x40000087 0x400004E7 ∧
    upd .pageUpdate1100 0x40000005 = oldNew 0x40000005 0x40000025 ∧
    upd .pageUpdate1101 0x40000085 = oldNew 0x40000085 0x400000A5 ∧
    upd .pageUpdate1101 0x40000005 = oldNew 0x40000005 0x40000005 ∧
    upd .pageUpdate1101 0x40000087 = oldNew 0x40000087 0x400000E7 ∧
    upd .pageUpdate1110 0x40000005 = oldNew 0x40000005 0x40000425 ∧
    upd .pageUpdate1111 0x40000085 = oldNew 0x40000085 0x400004A5 ∧
    upd .pageUpdate1111 0x40000005 = oldNew 0x40000005 0x40000005 := by decide +kernel

/-- The store: the QWord afterwards, and the byte after it untouched (R752). -/
theorem test_update_stores :
    ((after (withQ [(0x400020, 0x50000007), (0x400028, 0xFF)] .reset) (.pageUpdate0101 0x400020)).map (fun t =>
      (memReadQ t 0x400020, memReadQ t 0x400028))) = some (0x50000067, 0xFF) := by decide +kernel

/-- The un-opcoded set: A on present entries, A and D on present writable ones (R783, R787). -/
theorem test_update_unopcoded :
    [Instr.aUpdate000, .aUpdate001, .aUpdate010, .aUpdate011, .aUpdate100].map (fun f => upd f 0x50000005) =
      List.replicate 5 (oldNew 0x50000005 0x50000025) ∧
    [Instr.adUpdate101, .adUpdate110, .adUpdate111].map (fun f => upd f 0x50000007) =
      List.replicate 3 (oldNew 0x50000007 0x50000067) ∧
    [Instr.adUpdate101, .adUpdate110, .adUpdate111].map (fun f => upd f 0x50000005) =
      List.replicate 3 (oldNew 0x50000005 0x50000005) := by decide +kernel

/-! ### Simple formats, ETC, EAC (sections 2.7, 2.8) -/

/-- A palette whose entry `k` is `k`. -/
def painted : State := { State.reset with palette := (List.range 256).map (BitVec.ofNat 32) }

theorem test_simple_formats :
    ans (.fmtR1 5 0) = some (.texel ⟨.unorm 1 1, .unorm 1 1, .unorm 1 1, .unorm 1 1⟩) ∧
    ans (.fmtR1 5 1) = some (.texel ⟨.unorm 0 1, .unorm 0 1, .unorm 0 1, .unorm 0 1⟩) ∧
    got painted (.fmtP4A4 0xC3) = some (.paletteRgb 3 (.unorm 0xCC 255)) ∧
    got painted (.fmtA4P4 0xC3) = some (.paletteRgb 12 (.unorm 0x33 255)) ∧
    got painted (.fmtP8A8 0x8010) = some (.paletteRgb 0x10 (.unorm 128 255)) ∧
    got painted (.fmtA8P8 0x8010) = some (.paletteRgb 0x80 (.unorm 16 255)) ∧
    got painted (.fmtP8 0x45) = some (.argb 0x45) ∧ got painted (.fmtP2 0b11100100 2) = some (.argb 2) := by
  decide +kernel

/-- Bytes 10 80 20 90 (R881): pixel 0 (Y, U, V) = (10, 80, 90), pixel 1 (20, 80, 90), R = V, G = Y, B = U. -/
theorem test_yuv422 :
    ans (.fmtYuv422 .normal 0x90208010) = some (.texels ⟨.unorm 0x90 255, .unorm 0x10 255, .unorm 0x80 255, .unorm 1 1⟩
      ⟨.unorm 0x90 255, .unorm 0x20 255, .unorm 0x80 255, .unorm 1 1⟩) := by decide +kernel

theorem test_etc1_individual :
    let v := b64 [0xF0, 0x0F, 0x88, 0x74, 0x00, 0xFF, 0x0F, 0xF0]
    [0, 1, 2, 3].map (fun r => row4 r (.etc1 v)) =
      List.replicate 4 [px1 242 0 123, px1 213 0 94, px1 80 255 216, px1 24 255 160] := by decide +kernel

theorem test_etc1_differential :
    let v := b64 [0x83, 0x7C, 0x39, 0x47, 0x12, 0x34, 0x56, 0x78]
    row4 0 (.etc1 v) = [px1 141 132 66, px1 103 94 28, px1 141 132 66, px1 103 94 28] ∧
    row4 1 (.etc1 v) = [px1 141 132 66, px1 103 94 28, px1 103 94 28, px1 141 132 66] ∧
    row4 2 (.etc1 v) = [px1 151 85 61, px1 173 107 83, px1 173 107 83, px1 173 107 83] ∧
    row4 3 (.etc1 v) = [px1 173 107 83, px1 161 95 71, px1 161 95 71, px1 161 95 71] := by decide +kernel

theorem test_etc2_t_and_h_modes :
    row4 2 (fun n => .etc2 (b64 [0xF2, 0x5C, 0x37, 0x97, 0x00, 0xFF, 0xF0, 0xF0]) n false) =
      [px1 51 119 153, px1 35 103 137, px1 170 85 204, px1 67 135 169] ∧
    ans (.etc2 (b64 [0x1B, 0xF9, 0xB5, 0x4E, 0x1B, 0xE4, 0x00, 0xFF]) ⟨0, 0⟩ false) = px1 28 96 164 ∧
    ans (.etc2 (b64 [0x1B, 0xF9, 0xB5, 0x4E, 0x1B, 0xE4, 0x00, 0xFF]) ⟨0, 2⟩ false) = px1 125 193 176 := by
  decide +kernel

theorem test_etc2_pta :
    let v := b64 [0x83, 0x7C, 0x39, 0x45, 0x12, 0x34, 0x56, 0x78]
    row4 0 (fun n => .etc2Pta v n false) = [px 132 123 57 255, px 103 94 28 255, px 132 123 57 255, px 103 94 28 255] ∧
    row4 2 (fun n => .etc2Pta v n false) = [px 0 0 0 0, px 173 107 83 255, px 173 107 83 255, px 173 107 83 255] ∧
    row4 3 (fun n => .etc2Pta v n false) =
      [px 173 107 83 255, px 156 90 66 255, px 156 90 66 255, px 156 90 66 255] := by decide +kernel

/-- A red value over 2047 (R854). -/
def red (n : Nat) : Option Result := some (.texel ⟨.unorm n 2047, .unorm 0 1, .unorm 0 1, .unorm 1 1⟩)

theorem test_eac_r11 :
    let v := b64 [0x80, 0x23, 0x05, 0x39, 0x77, 0xFA, 0xC6, 0x88]
    let w := b64 [0xFF, 0x0D, 0x24, 0x92, 0x49, 0xFF, 0xFF, 0xFF]
    row4 0 (fun n => .eacR11 v n false) = [red 996, red 1044, red 1220, red 820] ∧
    row4 1 (fun n => .eacR11 v n false) = [red 964, red 1076, red 1108, red 932] ∧
    row4 3 (fun n => .eacR11 w n false) = [red 2042, red 2042, red 2047, red 2047] := by decide +kernel

/-- The same block signed (R854): the index of texel (0, 1) is 4. -/
theorem test_eac_signed_and_r8 :
    let v := b64 [0x80, 0x23, 0x05, 0x39, 0x77, 0xFA, 0xC6, 0x88]
    let r (n : Nat) : Option Result := some (.texel ⟨.unorm n 255, .unorm 0 1, .unorm 0 1, .unorm 1 1⟩)
    ans (.eacR11 v ⟨0, 1⟩ true) = some (.texel ⟨.snorm (-1000) 1023, .unorm 0 1, .unorm 0 1, .unorm 1 1⟩) ∧
    row4 0 (fun n => .eacR8 v n) = [r 124, r 130, r 152, r 102] := by decide +kernel

/-- Red from the low half, green from the high half; alpha from the low half (R868, R865). -/
theorem test_eac_rg11_and_rgba8 :
    ans (.eacRg11 (b128 [0x80, 0x23, 0x05, 0x39, 0x77, 0xFA, 0xC6, 0x88, 0xFF, 0x0D, 0x24, 0x92, 0x49, 0xFF, 0xFF, 0xFF])
      ⟨0, 0⟩ false) = some (.texel ⟨.unorm 996 2047, .unorm 2042 2047, .unorm 0 1, .unorm 1 1⟩) ∧
    ans (.etc2EacRgba8 (b128 [0x80, 0x23, 0x05, 0x39, 0x77, 0xFA, 0xC6, 0x88, 0x83, 0x7C, 0x39, 0x47, 0x12, 0x34, 0x56,
      0x78]) ⟨0, 0⟩ false) = px 141 132 66 124 := by decide +kernel

/-! ### FXT1, DXT, BC4, BC5 (section 2.9) -/

/-- Texels `t`, `t + 1`, ... of an FXT1 block. -/
def fx (f : BitVec 5 → Instr) (t n : Nat) : List (Option Result) :=
  (List.range n).map (fun k => ans (f (BitVec.ofNat 5 (t + k))))

theorem test_fxt1_hi_and_chroma :
    fx (.fxt1Hi 0x3E00001FFAC688FAC688FAC688FAC688) 8 8 = [px 0 0 255 255, px 43 0 213 255, px 85 0 170 255,
      px 128 0 128 255, px 170 0 85 255, px 213 0 43 255, px 255 0 0 255, px 0 0 0 0] ∧
    fx (.fxt1Chroma 0x48420007C1F07C00E4E4E4E4E4E4E4E4) 4 4 = [px 255 0 0 255, px 0 255 0 255, px 0 0 255 255,
      px 132 132 132 255] := by decide +kernel

theorem test_fxt1_mixed :
    fx (.fxt1Mixed 0xAFFFE0003C38AA85E4E4E4E4E4E4E4E4) 0 4 = [px 82 166 41 255, px 137 120 74 255, px 192 74 107 255,
      px 247 28 140 255] ∧
    fx (.fxt1Mixed 0xAFFFE0003C38AA85E4E4E4E4E4E4E4E4) 16 4 = [px 0 0 0 255, px 85 84 85 255, px 170 167 170 255,
      px 255 251 255 255] ∧
    fx (.fxt1Mixed 0xBFFFE0003C38AA85E4E4E4E4E4E4E4E4) 0 4 = [px 82 165 41 255, px 164 96 90 255, px 247 28 140 255,
      px 0 0 0 0] ∧
    fx (.fxt1 0xBFFFE0003C38AA85E4E4E4E4E4E4E4E4) 16 4 = [px 0 0 0 255, px 127 125 127 255, px 255 251 255 255,
      px 0 0 0 0] := by decide +kernel

theorem test_fxt1_alpha :
    fx (.fxt1Alpha 0x6FC00007C1F07C00E4E4E4E4E4E4E4E4) 0 4 = [px 255 0 0 0, px 0 255 0 132, px 0 0 255 255, px 0 0 0 0] ∧
    fx (.fxt1Alpha 0x7FC00007C1F07C00E4E4E4E4E4E4E4E4) 0 4 = [px 255 0 0 0, px 170 85 0 44, px 85 170 0 88,
      px 0 255 0 132] ∧
    fx (.fxt1Alpha 0x7FC00007C1F07C00E4E4E4E4E4E4E4E4) 16 4 = [px 0 0 255 255, px 0 85 170 214, px 0 170 85 173,
      px 0 255 0 132] := by decide +kernel

theorem test_dxt1 :
    row4 0 (fun n => .dxt1 (b64 [0x00, 0xF8, 0, 0, 0xE4, 0xE4, 0x1B, 0x1B]) n false) =
      [px 255 0 0 255, px 0 0 0 255, px 170 0 0 255, px 85 0 0 255] ∧
    row4 2 (fun n => .dxt1 (b64 [0x00, 0xF8, 0, 0, 0xE4, 0xE4, 0x1B, 0x1B]) n false) =
      [px 85 0 0 255, px 170 0 0 255, px 0 0 0 255, px 255 0 0 255] ∧
    row4 0 (fun n => .dxt1 (b64 [0, 0, 0x00, 0xF8, 0xE4, 0xE4, 0x1B, 0x1B]) n false) =
      [px 0 0 0 255, px 255 0 0 255, px 127 0 0 255, px 0 0 0 0] ∧
    row4 0 (fun n => .dxt1Rgb (b64 [0, 0, 0x00, 0xF8, 0xE4, 0xE4, 0x1B, 0x1B]) n false) =
      [px 0 0 0 255, px 255 0 0 255, px 85 0 0 255, px 170 0 0 255] := by decide +kernel

theorem test_dxt3_and_dxt5 :
    row4 0 (fun n => .dxt3 (b128 [0x10, 0xF2, 0, 0, 0, 0, 0, 0, 0, 0xF8, 0, 0, 0, 0, 0, 0]) n) =
      [px 255 0 0 0, px 255 0 0 17, px 255 0 0 34, px 255 0 0 255] ∧
    (row4 0 (fun n => .dxt5 (b128 [200, 100, 0x88, 0xC6, 0xFA, 0x88, 0xC6, 0xFA, 0, 0xF8, 0, 0, 0, 0, 0, 0]) n) ++
      row4 1 (fun n => .dxt5 (b128 [200, 100, 0x88, 0xC6, 0xFA, 0x88, 0xC6, 0xFA, 0, 0xF8, 0, 0, 0, 0, 0, 0]) n)) =
      [200, 100, 185, 171, 157, 142, 128, 114].map (px 255 0 0) := by decide +kernel

/-- A red value over a maximum, other channels at their defaults. -/
def snorm (n : Int) : Option Result := some (.texel ⟨.snorm n 127, .unorm 0 1, .unorm 0 1, .unorm 1 1⟩)

theorem test_bc4 :
    let codes : List Nat := [0x88, 0xC6, 0xFA, 0x88, 0xC6, 0xFA]
    row4 0 (fun n => .bc4 (b64 ([100, 200] ++ codes)) n false) ++ row4 1 (fun n => .bc4 (b64 ([100, 200] ++ codes)) n
      false) = [100, 200, 120, 140, 160, 180, 0, 255].map (fun r =>
        some (.texel ⟨.unorm r 255, .unorm 0 1, .unorm 0 1, .unorm 1 1⟩)) ∧
    row4 0 (fun n => .bc4 (b64 ([127, 129] ++ codes)) n true) ++ row4 1 (fun n => .bc4 (b64 ([127, 129] ++ codes)) n
      true) = [127, -127, 90, 54, 18, -18, -54, -90].map snorm ∧
    row4 0 (fun n => .bc4 (b64 ([156, 50] ++ codes)) n true) ++ row4 1 (fun n => .bc4 (b64 ([156, 50] ++ codes)) n
      true) = [-100, 50, -70, -40, -10, 20, -127, 127].map snorm ∧
    ans (.bc4 (b64 [128, 0]) ⟨0, 0⟩ true) = snorm (-127) := by decide +kernel

/-- Red from bits 63:0, green from bits 127:64 (R972). -/
theorem test_bc5 :
    ans (.bc5 (b128 [100, 200, 0, 0, 0, 0, 0, 0, 30, 40, 1]) ⟨0, 0⟩ false) =
      some (.texel ⟨.unorm 100 255, .unorm 40 255, .unorm 0 1, .unorm 1 1⟩) := by decide +kernel

/-! ### BC6H, BC7 (section 2.10) -/

/-- A texel of three half-precision values. -/
def hx (r g b : Nat) : Option Result :=
  some (.texel ⟨.half (BitVec.ofNat 16 r), .half (BitVec.ofNat 16 g), .half (BitVec.ofNat 16 b), .unorm 1 1⟩)

/-- Texel `t` of a block, in raster order. -/
def at4 (t : Nat) : Pos := ⟨BitVec.ofNat 2 (t / 4), BitVec.ofNat 2 t⟩

theorem test_bc6h_mode10 :
    let v := b128 [0x03, 0x00, 0x00, 0xFF, 0xFF, 0x1F, 0x40, 0x00, 0x10, 0x32, 0x54, 0x76, 0x98, 0xBA, 0xDC, 0xFE]
    [0, 1, 2, 8, 15].map (fun t => ans (.bc6h v (at4 t) false)) = [hx 0 0x3E0F 0x7BFF, hx 0x7C0 0x3E0F 0x743F,
      hx 0x1170 0x3E0F 0x6A8F, hx 0x41DF 0x3E0F 0x3A20, hx 0x7BFF 0x3E0F 0] ∧
    [0, 1, 15].map (fun t => ans (.bc6hMode10 v (at4 t) true)) = [hx 0 0xFBFF 0x805D, hx 0x8005 0xFBFF 0x8057,
      hx 0x805D 0xFBFF 0] := by decide +kernel

theorem test_bc6h_two_regions_and_mode13 :
    let v := b128 [0x80, 0x0C, 0x64, 0x58, 0x2A, 0xA1, 0xFB, 0x37, 0x20, 0xA4, 0x11, 0x8D, 0xF5, 0x11, 0x8D, 0xF5]
    let w := b128 [0x0F, 0x80, 0xFF, 0x01, 0x80, 0x20, 0x7C, 0x04, 0xF0, 0x01, 0, 0, 0, 0, 0, 0]
    [0, 1, 7, 8, 15].map (fun t => ans (.bc6hMode0 v (at4 t) false)) = [hx 0xC2B 0x1847 0x2463, hx 0xC41 0x183A 0x24A4,
      hx 0xCC6 0x17EA 0x2634, hx 0xA3B 0x1847 0x2482, hx 0xB75 0x183A 0x248F] ∧
    [0, 1, 2].map (fun t => ans (.bc6hMode13 w (at4 t) true)) = [hx 0xFC00 0x7BFF 0, hx 0xFC00 0xFC00 0x8007,
      hx 0xFC00 0x6C7F 0] := by decide +kernel

theorem test_bc7_single_region :
    let v := b128 [0x40, 0xC0, 0x1F, 0x08, 0xFC, 0x03, 0x00, 0x7F, 0x11, 0x32, 0x54, 0x76, 0x98, 0xBA, 0xDC, 0xFE]
    let w := b128 [0x10, 0xE0, 0x7F, 0x80, 0x10, 0xF0, 0xCB, 0xC9, 0xC9, 0xC9, 0x89, 0xC6, 0xFA, 0x88, 0xC6, 0xFA]
    let x := b128 [0xA0, 0x7F, 0x00, 0xE0, 0x0F, 0x00, 0xFC, 0x43, 0xC8, 0xC9, 0xC9, 0xC9, 0x2F, 0x2D, 0x2D, 0x2D]
    [0, 1, 2, 3, 7, 8, 14, 15].map (fun t => ans (.bc7Mode6 v (at4 t) false)) = [px 0 128 254 0, px 16 128 238 16,
      px 36 128 218 36, px 52 128 203 52, px 120 128 135 120, px 135 129 120 135, px 239 129 17 239,
      px 255 129 1 255] ∧
    [0, 1, 2, 3, 4, 5, 6, 7].map (fun t => ans (.bc7 w (at4 t) false)) = [px 0 255 66 0, px 84 171 66 36,
      px 171 84 66 72, px 255 0 66 108, px 0 255 66 147, px 84 171 66 183, px 171 84 66 219, px 255 0 66 255] ∧
    [0, 1, 2, 3].map (fun t => ans (.bc7Mode5 x (at4 t) false)) = [px 255 177 0 0, px 171 16 0 84, px 84 94 0 171,
      px 0 255 0 255] := by decide +kernel

theorem test_bc7_regions :
    let v := b128 [0x36, 0x3F, 0x00, 0xFC, 0xC0, 0x0F, 0x80, 0x00, 0xF0, 0x03, 0x11, 0x8D, 0xF5, 0xEF, 0x72, 0x0A]
    let w := b128 [0xE9, 0x01, 0x00, 0x1E, 0xE0, 0x01, 0x1E, 0x1E, 0x1E, 0xB1, 0x21, 0x1A, 0xEB, 0x13, 0x8D, 0xF5]
    let x := b128 [0x80, 0xC0, 0x07, 0xE0, 0x83, 0x0F, 0x00, 0x00, 0x1F, 0xFC, 0x0F, 0xFE, 0xC8, 0xC9, 0xC9, 0xC9]
    row4 0 (fun n => .bc7Mode1 v n false) = [px 255 2 2 255, px 219 38 2 255, px 184 73 2 255, px 148 109 2 255] ∧
    row4 3 (fun n => .bc7 v n false) = [px 107 54 146 255, px 71 36 182 255, px 36 18 217 255, px 0 0 253 255] ∧
    [0, 1, 7, 8, 9, 10, 11, 12, 13, 14, 15].map (fun t => ans (.bc7Mode0 w (at4 t) false)) = [px 255 8 8 255,
      px 219 7 42 255, px 0 0 247 255, px 8 255 8 255, px 8 220 43 255, px 69 69 132 255, px 104 104 132 255,
      px 8 112 151 255, px 8 77 186 255, px 212 212 132 255, px 104 104 132 255] ∧
    row4 0 (fun n => .bc7Mode7 x n false) = [px 255 4 4 255, px 173 86 4 255, px 169 0 82 169, px 251 0 0 251] ∧
    ans (.bc7Mode7 x ⟨3, 3⟩ false) = px 82 0 169 82 := by decide +kernel

/-! ### ASTC (section 2.11) -/

/-- An ASTC texel of four half-precision values. -/
def h4 (r g b a : Nat) : Option Result :=
  some (.texel ⟨.half (BitVec.ofNat 16 r), .half (BitVec.ofNat 16 g), .half (BitVec.ofNat 16 b),
    .half (BitVec.ofNat 16 a)⟩)

theorem test_astc_void_extent :
    ans (.astc (b128 [0xFC, 0xFD, 0xFF, 0xFF, 0xFF, 0xFF, 0xFF, 0xFF, 0x34, 0x12, 0x00, 0x80, 0xFF, 0xFF, 0xFF, 0xFF])
      0x040 1 2 0) = h4 0x2C8D 0x3800 0x3C00 0x3C00 ∧
    ans (.astc (b128 [0xFC, 0x0F, 0, 0, 0x60, 0x01, 0x30, 0, 0, 0x44, 0, 0x38, 1, 0, 0, 0x3C]) 0x140 0 0 0) =
      h4 0x4400 0x3800 1 0x3C00 ∧
    ans (.astc (b128 [0xFC, 0x0F, 0, 0, 0x60, 0x01, 0x30, 0, 0, 0x44, 0, 0x38, 1, 0, 0, 0x3C]) 0x040 0 0 0) =
      h4 0x3C00 0 0x3C00 0x3C00 ∧
    ans (.astc (b128 [0xFC, 0x7D, 0, 0x0E, 0x40, 0x01, 0x30, 0, 0, 0x44, 0, 0x38, 1, 0, 0, 0x3C]) 0x040 0 0 0) =
      h4 0x3C00 0 0x3C00 0x3C00 := by decide +kernel

/-- Row `t` of a 4x4 ASTC block. -/
def astcRow (v : BitVec 128) (fmt : BitVec 9) (t : BitVec 4) (n : Nat) : List (Option Result) :=
  (List.range n).map (fun k => ans (.astc v fmt (BitVec.ofNat 4 k) t 0))

theorem test_astc_cem0 :
    let v := b128 [0x42, 0x00, 0x40, 0xC0, 0x01, 0, 0, 0, 0, 0, 0, 0, 0xA5, 0x0F, 0xD8, 0x27]
    let g (n : Nat) := h4 n n n 0x3C00
    astcRow v 0x040 0 4 = [g 0x3004, g 0x35F5, g 0x390D, g 0x3B07] ∧
    astcRow v 0x040 1 4 = [g 0x3B07, g 0x390D, g 0x35F5, g 0x3004] := by decide +kernel

theorem test_astc_dual_plane_and_hdr :
    let v := b128 [0x41, 0xEC, 0x54, 0x45, 0x91, 0x7F, 0x0A, 0x2D, 0x3C, 0x9E, 0x1A, 0x70, 0xAA, 0xAA, 0x55, 0x55]
    let w := b128 [0x42, 0x60, 0x81, 0xF0, 0x60, 0xE0, 0x20, 0x79, 0x01, 0, 0, 0, 0x27, 0x27, 0x27, 0x27]
    astcRow v 0x049 0 5 = List.replicate 5 (h4 0x3515 0x39E5 0x3105 0x3C00) ∧
    astcRow v 0x049 2 5 = List.replicate 5 (h4 0x3565 0x39C9 0x3165 0x3C00) ∧
    astcRow v 0x049 4 5 = List.replicate 5 (h4 0x3A5E 0x3A5E 0x3A5E 0x3C00) ∧
    astcRow w 0x140 3 4 = [h4 0x2000 0x1800 0x1000 0x3C00, h4 0x28F0 0x2240 0x1E30 0x3C00,
      h4 0x3290 0x2D40 0x2D50 0x3C00, h4 0x3C00 0x3800 0x3C00 0x3C00] ∧
    astcRow w 0x040 3 4 = List.replicate 4 (h4 0x3C00 0 0x3C00 0x3C00) := by decide +kernel

/-- Two partitions (R1142, R1150), before the sRGB transfer. -/
theorem test_astc_partitions :
    ans (.astc (b128 [0xAF, 0xA9, 0x2A, 0xF0, 0xFF, 0x01, 0x08, 0x40, 0x00, 0x04, 0xFC, 0xE1, 0x1F, 0xB8, 0xED, 0x11])
      0x012 1 0 0) = some (.texel ⟨.linear (Config.srgbToLinear 12), .linear (Config.srgbToLinear 177),
        .linear (Config.srgbToLinear 218), .unorm 255 255⟩) := by rfl

theorem test_astc_illegal :
    ans (.astc 0x50 0x040 0 0 0) = h4 0x3C00 0 0x3C00 0x3C00 ∧ ans (.astc 0x1C41 0x040 0 0 0) = h4 0x3C00 0 0x3C00
      0x3C00 ∧ ans (.astc 0xC2 0x040 0 0 0) = h4 0x3C00 0 0x3C00 0x3C00 ∧ ans (.astc 0 0x001 0 0 0) = none := by
  decide +kernel

/-- 6x6x1 blocks, 4 LODs, 256 x 128 x 1 (R1087); LOD 1 at offset 15152 (R1089). -/
theorem test_astc_header :
    ans (.astcHeader (b128 [0x13, 0xAB, 0xA1, 0x5C, 6, 6, 0x19, 0, 1, 0, 0x80, 0, 0, 1, 0, 0]) 1 0) =
      some (.astcHeader { bw := 6, bh := 6, bd := 1, numLods := 4, width := 256, height := 128, depth := 1,
                          offset := some 15152 }) := by decide +kernel

/-! ### Surface layout (section 2.12) -/

theorem test_buffers :
    ans (.bufTyped 0x1000 24 5 0) = addr (0x1000 + 120) ∧ ans (.bufRaw 0x1000 0x1234) = addr 0x2234 ∧
    ans (.bufStructured 0x1000 64 3 8) = addr (0x1000 + 200) := by decide +kernel

theorem test_surf1D : ans (.surf1D line) = addr 2076 := by decide +kernel

theorem test_surf2D :
    ans (.surf2D surf) = addr 21584 ∧
    ans (.surf2D { surf with tile := .linear, pitch := 400, u := 3, v := 2 }) = addr 812 ∧
    got .reset (.surf2D { surf with tile := .linear, pitch := 512, width := 100, height := 60, i := 16, j := 4, lod := 3,
                                    u := 0, v := 0, bpe := .b8 }) = addr (76 * 512 + 64) := by decide +kernel

/-- 4 samples, TileYS, u = 0x1A4, v = 0x25, sample 2 (R1262): in the second tile. -/
theorem test_surf2D_samples :
    ans (.surf2D { surf with tr := .ys, samples := .s4, u := 0x69, v := 0x25, ss := 2 }) = addr 0x1B254 := by
  decide +kernel

theorem test_mcs :
    [0, 1, 2, 3].map (fun k => ans (.mcsDecode .s4 0xD9 k)) = [some (.mcs (.slice 0)), some (.mcs (.slice 1)),
      some (.mcs (.slice 0)), some (.mcs .clear)] ∧
    [0, 1, 2, 3].map (fun k => ans (.mcsDecode .s4 0xE4 k)) = [some (.mcs (.slice 0)), some (.mcs (.slice 1)),
      some (.mcs (.slice 2)), some (.mcs (.slice 3))] ∧
    ans (.mcsDecode .s4 0xFF 2) = some (.mcs .clear) ∧ ans (.mcsDecode .s4 0 2) = some (.mcs (.slice 0)) := by
  decide +kernel

theorem test_quilt_and_cube :
    ans (.surfQuilt 4 2 3 1 1) = some (.slice 15) ∧ ans (.surfCube 2 3) = some (.slice 15) := by decide +kernel

theorem test_surf3D : ans (.surf3D { surf with u := 40, v := 5, r := 1 }) = addr 37968 := by decide +kernel

/-- A padding request (R1289). -/
def padOf (w h i j q : Nat) (cls : PadClass) : Instr :=
  .surfPad { width := BitVec.ofNat 32 w, height := BitVec.ofNat 32 h, i := BitVec.ofNat 16 i, j := BitVec.ofNat 16 j,
             q := BitVec.ofNat 8 q, cls := cls, linear := false, cube := false, simple := false }

theorem test_pad :
    ans (padOf 15 10 4 2 1 .plain) = some (.pad { width := 16, height := 10, extraBytes := 0, roundEnd := false }) ∧
    ans (padOf 30 30 4 4 4 .compressed) = some (.pad { width := 32, height := 32, extraBytes := 0, roundEnd := false }) :=
  by decide +kernel

/-! ### Walks (sections 2.2, 2.3) -/

/-- A legacy context, 32-bit or 48-bit, with the tables of section 2.3. -/
def legacy (va48 : Bool) : Ctx :=
  { noCtx with valid := true, advanced := false, usePPGTT := true, va48 := va48, contextID := 7, pml4 := 0x100000,
               pdp2 := 0x10000000 }

/-- The IOMMU inputs of PASID 0x12. -/
def pasid12 : IommuEntry := { IommuEntry.absent 0 0x12 with pml4 := 0x100000, paside := true, preCtx := true }

/-- An advanced user context in PASID 0x12: fault model 01, ADEnable as asked. -/
def adv (ad : Bool) : Ctx :=
  { noCtx with valid := true, advanced := true, adEnable := ad, faultModel := 1, contextID := 7, pasid := 0x12,
               pml4 := 0x100000, iommu := pasid12 }

/-- A context resident on the render engine, running. -/
def running (c : Ctx) (s : State) : State := s.setEng .render { s.eng .render with ctx := some c, run := .running }

/-- A read and a write. -/
abbrev rd : Acc := .read
abbrev wr : Acc := .write

/-- A 4 KB translation. -/
def page4K (pa : Nat) : Option Result := some (.xlate (.phys pa .size4K false false false))

/-- The four entries of section 2.3, for va 0x0080_8060_4567, with a PDE and a PTE. -/
def tables (pde pte : Nat) : List (Nat × Nat) :=
  [(0x100008, 0x200007), (0x200010, 0x300007), (0x300018, pde), (0x400020, pte)]

/-- The address of section 2.3. -/
def va4 : QWord := 0x008080604567

theorem test_ggtt_walk :
    got (withQ [(0x7C000918, 0x123456001)] .reset) (.ggttWalk none rd 0x123ABC) = page4K 0x123456ABC ∧
    got (withQ [(0x7C000918, 0xFFFFFF8123456FFF)] .reset) (.ggttWalk none rd 0x123ABC) = page4K 0x123456ABC ∧
    got (running (legacy true) (withQ [(0x7C7FFFF8, 0x9001)] .reset)) (.ggttWalk (some .render) rd 0xFFFFF010) =
      page4K 0x9010 ∧
    got (withQ [(0x7C000918, 0x123456000)] .reset) (.ggttWalk none rd 0x123ABC) = some .dropped := by decide +kernel

/-- The 32-bit walk with the given PDE and PTE (R574). -/
def walk32 (pde pte : Nat) (big : Bool) (a : Acc) : Option Result :=
  let s := withQ [(0x10000010, pde), (0x20000A98, pte), (0x20000A80, 0x34570003)] .reset
  got (running (legacy false) { s with par := { s.par with mmio64KEnable := big } })
    (.ppgtt32Walk .render .other 0 a 0x80553123)

theorem test_ppgtt32_walk :
    walk32 0x20000003 0x34567003 false wr = page4K 0x34567123 ∧
    walk32 0x20000803 0x34567003 true wr = some (.xlate (.phys 0x34573123 .size64K false false false)) ∧
    walk32 0x20000803 0x34567003 false wr = page4K 0x34567123 ∧
    walk32 0x20000003 0x201 false wr = some (.xlate .nullPage) ∧
    walk32 0x20000003 0x200 false rd = some (.pageFault .notPresent .pt) ∧
    walk32 0x20000003 0x34567001 false wr = some (.pageFault .writePermission .pt) ∧
    walk32 0x20000001 0x34567003 false wr = page4K 0x34567123 := by decide +kernel

theorem test_ppgtt48_walk :
    got (running (legacy true) (withQ (tables 0x400003 0x50000003) .reset)) (.ppgtt48Walk .render .other 0 wr va4) =
      page4K 0x50000567 ∧
    got (running (legacy true) (withQ (tables 0x40200083 0) .reset)) (.ppgtt48Walk .render .other 0 wr va4) =
      some (.xlate (.phys 0x40204567 .size2M false false false)) ∧
    got (running (legacy true) (withQ [(0x100008, 0x200003), (0x200010, 0xC0000083)] .reset))
      (.ppgtt48Walk .render .other 0 wr va4) = some (.xlate (.phys 0xC0604567 .size1G false false false)) := by
  decide +kernel

/-- The advanced walk on the tables: its answer and the four entries afterwards. -/
def walkIa (ad : Bool) (pde pte : Nat) (a : Acc) : Option (Result × List QWord) :=
  (after (running (adv ad) (withQ (tables pde pte) .reset)) (.ia32eWalk .render .other 0 a va4)).map (fun t =>
    (t.out, [0x100008, 0x200010, 0x300018, 0x400020].map (memReadQ t)))

theorem test_ia32e_walk :
    walkIa true 0x400007 0x50000007 wr = some (.xlate (.phys 0x50000567 .size4K false false false),
      [0x200027, 0x300027, 0x400027, 0x50000067]) ∧
    walkIa true 0x400007 0x50000005 wr = some (.pageFault .writePermission .pt,
      [0x200027, 0x300027, 0x400027, 0x50000025]) ∧
    walkIa true 0x400007 0x50000003 rd = some (.pageFault .privilege .pt,
      [0x200027, 0x300027, 0x400027, 0x50000023]) ∧
    walkIa true 0x400005 0x50000007 wr = some (.pageFault .writePermission .pd,
      [0x200027, 0x300027, 0x400005, 0x50000007]) := by decide +kernel

theorem test_ia32e_rights_and_reserved :
    walkIa false 0x400003 0x50000007 rd = some (.pageFault .privilege .pd,
      [0x200007, 0x300007, 0x400003, 0x50000007]) ∧
    (walkIa false 0x400007 0x50000001 wr).map Prod.fst = some (.pageFault .privilege .pt) ∧
    (walkIa false 0x400007 0x8050000007 rd).map Prod.fst = some (.pageFault .notPresent .pt) ∧
    (walkIa false 0x400007 0x7FF0000050000007 rd).map Prod.fst =
      some (.xlate (.phys 0x50000567 .size4K false false false)) := by decide +kernel

/-- The tables of section 2.2 under a 1 GB identity page of a 48-bit legacy context. -/
def tiled (l3 l2 l1 : Nat) : State :=
  let s := withQ [(0x100000, 0x200003), (0x200000, 0x83), (0x10000000, l3), (0x20000020, l2), (0x300008D0, l1)] .reset
  running (legacy true)
    { s with
      oldBytes := [], reg4DFC := 1
      trtt := { l3ptr := 0x10000000, nullDetect := 1, invalidDetect := 2, trvadr := 0xFF, trtte := 1 } }

/-- The answer, the count of null tiles and the events of `TRTT.WALK`. -/
def walkTr (l3 l2 l1 : Nat) : Option (Result × Nat × List Event) :=
  (after (tiled l3 l2 l1) (.trttWalk 0xF00012345678)).map (fun t => (t.out, t.nullTileCount, t.events.driver))

theorem test_trtt_walk :
    walkTr 0x20000000 0x30000000 0xABCDEF = some (.trtt (.mapped 0xABCDEF5678), 0, []) ∧
    walkTr 0x20000000 0x30000000 1 = some (.trtt .null, 1, []) ∧
    walkTr 0x20000000 0x30000000 2 = some (.trtt .invalid, 0, [.trttInvalidTile 0xF00012345678]) ∧
    walkTr 0x20000002 0 0 = some (.trtt .null, 1, []) ∧
    walkTr 0x20000000 0x30000001 0 = some (.trtt .invalid, 0, [.trttInvalidTile 0xF00012345678]) := by decide +kernel

/-- Both bits (R502): the parameter. -/
theorem test_trtt_both_bits :
    walkTr 3 0 0 = some (.trtt .invalid, 0, [.trttInvalidTile 0xF00012345678]) := by decide +kernel

/-- A walk that has waited is made again as at first: with detection values made equal meanwhile it is refused (R502, U7),
and with TR-TT switched off it is not selected (R498). -/
theorem test_trtt_again :
    let s := tiled 0x20000000 0x30000000 1
    let again (r : TrttRegs) : Option Refusal :=
      match attempt { s with trtt := r } none (.plain (.trtt 0xF00012345678)) with
      | .error x => some x
      | .ok _ => none
    again s.trtt = none ∧ again { s.trtt with invalidDetect := 1 } = some .detectValuesEqual ∧
    again { s.trtt with trvadr := 0x1F } = some .trvaMask ∧ again { s.trtt with trtte := 0 } = some .wrongMode := by
  decide +kernel

/-! ### The TLB and the HDC port (section 2.5) -/

/-- The request of section 2.5. -/
def req : PageReqMsg :=
  { valid := true, slice := 0, hdc := 2, vpage := 0x8080604, write := true, tracking := 0x5A, faultable := true }

/-- Its response. -/
def resp : HdcResp :=
  { slice := 0, hdc := 2, pa := 0x50000, write := true, d := true, code := .noFault, memType := .wb, tracking := 0x5A,
    mode := .stream, xlate := some (.phys 0x50000000 .size4K false false false) }

theorem test_hdc_request :
    got (running { adv true with faultModel := 2 } (withQ (tables 0x400007 0x50000007) .reset)) (.hdcPageReq req) =
      some (.hdc resp) := by decide +kernel

/-- The response as a message. -/
def respMsg : PageRespMsg :=
  { valid := true, pa := 0x50000, write := true, slice := 0, hdc := 2, d := true, code := .noFault, memType := .wb,
    tracking := 0x5A, mode := .stream }

/-- An HDC that waits for the response. -/
def asked : State := { State.reset with hdcPorts := [⟨0, 2, [⟨0x5A, 0x8080604⟩]⟩], hdcResponses := [resp] }

theorem test_hdc_response :
    (after asked (.hdcPageResp respMsg)).map (fun t => (t.hdcPorts, t.hdcResponses, t.miniTlb)) =
      some ([⟨0, 2, []⟩], [],
        [⟨0, 2, 0x8080604, 0x50000, true, true, .wb, .phys 0x50000000 .size4K false false false⟩]) := by decide +kernel

theorem test_hdc_invalidation :
    (after asked (.hdcTlbInv .start)).map (fun t => (t.hdcPorts, t.hdcResponses, t.hdcInvalidating)) =
      some ([⟨0, 2, []⟩], [], true) ∧
    (after { asked with hdcInvalidating := true } (.hdcTlbInv (.ack 0 2))).map (fun t => t.hdcAcks) =
      some [((0 : BitVec 2), (2 : BitVec 2))] ∧
    (after { asked with hdcInvalidating := true, hdcAcks := [(0, 2)] } (.hdcTlbInv .stop)).map (fun t => t.out) =
      some .waits ∧
    (after { asked with hdcInvalidating := true, hdcAcks := [(0, 2), (0, 0), (0, 1)] } (.hdcTlbInv .stop)).map (fun t =>
      t.hdcInvalidating) = some false := by decide +kernel

/-- A translation of page 0x8080604 of PASID 0x12 and its faulted record. -/
def cached : State :=
  let s := running (adv true) .reset
  s.setEng .render { s.eng .render with
    facts := [.leaf .l3 false { page := 0x8080604, size := .size4K, frame := 0x50000000, rw := true, xd := false,
                                dirty := true, pat := false, pcd := false, pwt := false },
              .faulted .ff 0x8080604 .notPresent false 0x12, .entry 0x100008 0x200027] }

theorem test_tlb_invalidate :
    (after cached (.tlbInvalidate (.page 0x12 0x8080604) ⟨false, false, false⟩)).map (fun t => (t.eng .render).facts) =
      some [.entry 0x100008 0x200027] ∧
    (after cached (.tlbInvalidate (.page 0x12 0x8080605) ⟨false, false, false⟩)).map (fun t =>
      (t.eng .render).facts.length) = some 3 ∧
    (after cached (.tlbInvalidate (.pasid 0x12) ⟨true, true, true⟩)).map (fun t => (t.eng .render).facts) =
      some [] := by decide +kernel

/-! ### Faults and the agents (sections 2.6, 2.13), one step each -/

/-- The state after one step. -/
def next (s : State) : Option State :=
  match step s with
  | .next t => some t
  | .fault _ => none
  | .refused _ => none

/-- An action of an agent as the next one. -/
def doing (s : State) (i : Input) : State := { s with inbox := [i] }

/-- R1308: which model handles a fault. -/
theorem test_fault_models :
    [Client.hdcCoherent, .ic, .sampler, .other].map (fun k =>
      (faultModelOf .reset .render { adv true with faultModel := 2 } k none false).toOption) =
      [some .stream, some .stream, some .halt, some .halt] ∧
    (faultModelOf { State.reset with reg404C := 1 } .render { adv true with faultModel := 2 } .hdcCoherent none
      false).toOption = some .halt ∧
    (faultModelOf .reset .render (legacy true) .other none false).toOption = some .hang := by decide +kernel

/-- A write to a page whose PTE is not present: the engine of an advanced context halts (R1316, R1318). -/
theorem test_fault_and_halt :
    (after (running (adv true) (withQ (tables 0x400007 0) .reset)) (.ia32eWalk .render .other 0 wr va4)).map (fun t =>
      (t.missBlocked, t.outstanding.map (fun r => (r.page, r.mode, r.code)), t.waiting.length)) =
      some (some .render, [(0x8080604, .halt, .notPresent)], 1) := by decide +kernel

/-- The GGTT alias (R222), the aperture (R214), the null range (R218). -/
theorem test_host_accesses :
    (next (doing .reset (.hostWrite 0x5000800918 [1, 0x60, 0x45, 0x23, 1, 0, 0, 0]))).map (fun t =>
      memReadQ t 0x7C000918) = some 0x123456001 ∧
    (next (doing (withQ [(0x7C000918, 0x40003001), (0x40003ABC, 0xAB)] .reset) (.hostRead 0x4000123ABC 1))).map (fun t =>
      t.returns.map (fun r => r.data)) = some [[0xAB]] ∧
    (next (doing .reset (.hostRead 0x5000170000 4))).map (fun t => t.hostData) = some [0, 0, 0, 0] := by
  decide +kernel

/-- TRVATTL3PTR keeps only its defined bits (R491). -/
theorem test_l3_pointer :
    (next (doing .reset (.csRegWrite .render 0x4DE0 0x56789ABC))).map (fun t => t.trtt.l3ptr) = some 0x56780000 := by
  decide +kernel

/-- The blitter has written a byte that the texture cache may hold (R1404): old or new until the invalidation; its own
reads and, after its flush, the host's see the new one (R280). A host's write is new to the blitter at once, unless its
cache has kept the line. -/
theorem test_texture_cache_and_blitter :
    let blt : CacheId := ⟨.bcs, .other⟩
    let smp : CacheId := ⟨.render, .sampler⟩
    let via (c : CacheId) : Reader := { agent := .gpu c, coherent := false, snoops := true }
    let s := storeSeen .reset { writer := .gpu blt, held := true, unsnooped := false, inLlc := true } 0x103F [7, 8]
    (loadSeen s (via smp) 0x103F 1).1 = [if Config.freeBool 0 then 0 else 7] ∧
    (loadSeen (invalidateCache s smp) (via smp) 0x103F 2).1 = [7, 8] ∧
    (loadSeen s (via blt) 0x103F 2).1 = [7, 8] ∧
    (loadSeen (flushCache s blt) .host 0x103F 2).1 = [7, 8] ∧
    (loadSeen (storeSeen .reset .host 0x103F [7]) (via blt) 0x103F 1).1 = [7] ∧
    (loadSeen (storeSeen (noteCached .reset (via blt) 0x103F 1) .host 0x103F [7]) (via blt) 0x103F 1).1 =
      [if Config.freeBool 0 then 0 else 7] := by
  refine ⟨?_, by decide +kernel, by decide +kernel, by decide +kernel, by decide +kernel, ?_⟩
  all_goals
    show [((if Config.freeBool 0 = true then ((0 : Byte), false) else (7, true)) : Byte × Bool).1] = _
    split <;> rfl

/-- A halted engine with its page request, as P2 of section 3 leaves it after step 3. -/
def halted : State :=
  let s := running (adv true) (withQ (tables 0x400007 0x50000027) .reset)
  let f : PageFault :=
    { code := .writePermission, level := .pt, va := 0x8080604000, acc := wr, engine := some .render, ggtt := false,
      us := false, pasid := 0x12, contextID := 7 }
  let r : PageRequest :=
    { engine := some .render, pasid := 0x12, contextID := 7, page := 0x8080604, acc := wr, code := .writePermission,
      level := .pt, mode := .halt, prgIndex := 0, last := false, terminating := false, taken := true }
  { s.setEng .render { s.eng .render with run := .halted f, facts := [.faulted .ff 0x8080604 .writePermission false 0x12] }
    with outstanding := [r], nextPrg := 1, missBlocked := some .render, waiting :=
      [{ req := .access { engine := some .render, client := .other, slice := 0, hdc := 0, space := .virtual, mocs := none
                          useGgtt := false, tileX := false, display := false, va := va4.toNat, op := .vwrite [0x77]
                          later := [], around := [], tag := 1 }
         faulted := true, table := none }] }

/-- P2 step 4 and 5: success runs the engine, and the write is performed. -/
theorem test_response_success :
    let t := next (doing halted (.pageResponse 0x12 0 0))
    t.map (fun t => ((t.eng .render).run, t.missBlocked)) = some (.running, none) ∧
    t.map (fun t => (t.outstanding, t.waiting)) = some ([], []) ∧
    t.map (fun t => (memReadQ t 0x400020, memReadQ t 0x50000567)) = some (0x50000067, 0x77) := by decide +kernel

/-- The variant of P2: a failing code sets RF, and the write is not performed. -/
theorem test_response_failure :
    let t := next (doing halted (.pageResponse 0x12 0 15))
    t.map (fun t => ((t.eng .render).run, t.pci.rf, t.missBlocked)) = some (.running, true, none) ∧
    t.map (fun t => (memReadQ t 0x400020, memReadQ t 0x50000567)) = some (0x50000027, 0) := by decide +kernel

/-- A switched-out context is away, with no page request of its own; a failing response for its PASID reports it bad
(R1336). -/
theorem test_response_failure_meets_away_context :
    (next (doing { running (adv false) .reset with pasidState := [(0x12, 1)] } (.switchOut .render))).map (fun t =>
      t.awayContexts) = some [⟨.render, 0x12, 7⟩] ∧
    (next (doing { halted with awayContexts := [⟨.bcs, 0x12, 9⟩, ⟨.bcs, 0x13, 10⟩] } (.pageResponse 0x12 0 15))).map (fun t =>
      (t.badContexts, t.failedContexts, t.events.scheduler)) =
      some ([9], [7, 9], [.contextError (some .bcs) 0x12 9 .responseFailure,
        .contextError (some .render) 0x12 7 .responseFailure]) := by
  decide +kernel

/-- A context that a reset has taken out is terminated: its LAST request is no record of the reset engine (R1384, R1344). -/
theorem test_last_after_reset :
    ((next (doing halted (.engineReset .render))).bind (fun t => next (doing t (.terminate 7)))).map (fun t =>
      (t.outstanding.map (fun r => (r.engine, r.last, r.prgIndex)), t.events.scheduler)) =
      some ([(some .render, false, 0), (none, true, 1)], [.terminationPending 7]) := by decide +kernel

/-- WP memory is read as WB and written as WC (R745): with LLC as target only its reads act on the host's caches (R280). -/
theorem test_wp_reads_snoop_as_wb :
    let m : MemControls := { type := .wp, target := .llc, age := .assign3, allocateOnMiss := true, snoop := false,
                             fence := false, cos := 0, l3 := false }
    (m.llcCoherent false, m.llcCoherent true) = (true, false) ∧
    [MemType.uc, .wc, .wt, .wp, .wb].map (fun t => ({ m with type := t }).llcCoherent false) =
      [false, false, true, true, true] := by decide

/-- The first walk caches every present entry of the PML4 table (R706): an unread one, changed later, may still serve. -/
theorem test_pml4_is_held_whole :
    let s := running (legacy true) (withQ [(0x100008, 0x200003), (0x100010, 0x500003), (0x100FF8, 0x600002)] .reset)
    let t := fillEntry s (some .render) 0x100008 .pml4 0x200003
    [0x100008, 0x100010, 0x100FF8].map (findCopy t (some .render) .pml4) = [some 0x200003, some 0x500003, none] ∧
    (readEntryPlain (memWriteQ t 0x100010 0x700003) .held (some .render) 0x100010 .pml4).1 = 0x500003 ∧
    ((after t (.tlbInvalidate (.engine .render) ⟨true, true, true⟩)).map (fun u =>
      findCopy u (some .render) .pml4 0x100010)) = some none := by decide +kernel

/-- Context Available and Context Launched (R682), and a message without its mask bit. -/
theorem test_context_messages :
    (next (doing .reset (.csRegWrite .render 0x4004 0x00010001))).map (fun t =>
      ((t.eng .render).run, t.events.commandStreamers)) = some (.switching, [.contextReceiveReady .render]) ∧
    (next (doing .reset (.csRegWrite .render 0x4004 1))).map (fun t => (t.eng .render).run) = some .idle := by
  decide +kernel

/-! ### Witnesses: for each statement with hypotheses, a state and operands that meet them together -/

theorem test_witness_DecodeReadsBackEveryOperation :
    (Instr.surf2D surf).WellFormed ∧ (Instr.bc7Mode6 0x40 ⟨3, 3⟩ true).WellFormed ∧
    (Instr.tileFence 0x2000 0x1000 2 .w).WellFormed := by decide +kernel

theorem test_witness_DecodeAnswersOnlyWellFormed :
    decode (raw 11 7 [2, 0, 0, 0, 3]) = .ok (.surfCube 2 3) := by rfl

/-- The inbox holds a record of TILE.YS.8. -/
def oneOp : State := doing .reset (.op (raw 1 7 [0x11, 0, 0x20, 0]))

/-- A start of an invalidation drops the request that a switch has waited for, and the switch goes on (R684, R746). -/
def switching : State :=
  { (running (legacy true) .reset) with
    inbox := [.op (raw 2 8 [0])], waiting := [.plain (.hdc ⟨0, 2, 5, false, 1, false⟩), .plain (.switchOut .render)] }

theorem test_witness_StepPerformsTheDecodedOperation :
    oneOp.inbox = [.op (raw 1 7 [0x11, 0, 0x20, 0])] ∧
    decode (raw 1 7 [0x11, 0, 0x20, 0]) = .ok (.tileYs8 0x11 0x20) ∧ State.reset.waiting = [] ∧
    exec (.tileYs8 0x11 0x20) .reset = .next { State.reset with out := .offset 0x601 } ∧
    exec (.tileX 8 1 0 0) .reset = .refused .surfaceMisaligned ∧ State.reset.inbox = [] := ⟨rfl, rfl, rfl, rfl, rfl, rfl⟩

theorem test_witness_StepSettlesMessages :
    (decode (raw 2 8 [0])).toOption = some (.hdcTlbInv .start) ∧
    (after { switching with inbox := [] } (.hdcTlbInv .start)).map (fun t => t.waiting) =
      some [.plain (.switchOut .render)] ∧
    (next switching).map (fun t => ((t.eng .render).ctx.isNone, t.waiting)) = some (true, []) := by decide +kernel

/-- A host write to a state whose memory lists bytes. -/
def writing : State := doing (withQ [(0x1000, 5)] .reset) (.hostWrite 0x1000 [0, 7])

theorem test_witness_EveryStepKeepsMemoryCanonical :
    Memory.wf writing.mem = true ∧ (next writing).map (fun t => t.mem) = some [(0x1001, 7)] := by decide +kernel

/-- A configuration write of the PASID control register. -/
def cfg : State := doing .reset (.cfgWrite 0x106 2 0xFFFF)

theorem test_witness_EveryStepKeepsReservedFields :
    RegsOk cfg ∧ (next cfg).map (fun t => t.pci.pasidControl) = some 7 := by
  have h : cfg.l3Control.all (fun x => decide (x.toNat < 64)) = true := by decide +kernel
  have k : cfg.gamt.all (fun x => decide (x.toNat < 2 ^ 17)) = true := by decide +kernel
  refine ⟨⟨by decide +kernel, fun x m => ?_, by decide +kernel, fun x m => ?_, by decide +kernel, by decide +kernel, ?_,
    fun x m => (by cases m), by decide, by decide, fun x m => (by cases m), fun x m => (by cases m), rfl, by decide⟩,
    by decide +kernel⟩
  · exact of_decide_eq_true (List.all_eq_true.mp h x m)
  · exact of_decide_eq_true (List.all_eq_true.mp k x m)
  · unfold TrttRegs.ok
    decide +kernel

/-- One resident context of PASID 0x12, to be switched out. -/
def leaving : State := doing { running (adv false) .reset with pasidState := [(0x12, 1)] } (.switchOut .render)

theorem test_witness_PasidStateCountsResidentContexts :
    PasidOk leaving ∧ (next leaving).map (fun t => t.pasidState) = some [] := by
  refine ⟨⟨by decide, fun p => ?_, fun e h => ?_⟩, by decide +kernel⟩
  · show (if (0x12 : BitVec 20) = p then 1 else 0) = b2n (true && (0x12 : BitVec 20) == p) + 0 + 0 + 0 + 0
    by_cases h : (0x12 : BitVec 20) = p <;> simp [h, b2n]
  · cases e <;> cases h

theorem test_witness_NoOperationChangesARegister :
    exec (.tileYs8 0x11 0x20) .reset = .next { State.reset with out := .offset 0x601 } := by rfl

theorem test_witness_OnlyTableUpdatesWriteMemory :
    mayWriteMemory (.tileYs8 0x11 0x20) = false ∧
    exec (.tileYs8 0x11 0x20) .reset = .next { State.reset with out := .offset 0x601 } := ⟨rfl, rfl⟩

/-- The last byte column of a pitch of two tiles, for each walk. -/
theorem test_witness_LegacyTileAddresses :
    (0x10000 : BitVec 64).toNat % 4096 = 0 ∧ (1023 : BitVec 32).toNat < (2 : BitVec 32).toNat * 512 ∧
    (255 : BitVec 32).toNat < (2 : BitVec 32).toNat * 128 ∧ (127 : BitVec 32).toNat < (2 : BitVec 32).toNat * 64 := by
  decide

theorem test_witness_MisalignedTileBaseIsRefused : (0x10FFF : BitVec 64).toNat % 4096 ≠ 0 := by decide

theorem test_witness_FencedAddressIsTheTiledPosition :
    600 < (2 : BitVec 32).toNat * tileWidth .x ∧
    (0x102A58 : BitVec 64).toNat = (0x100000 : BitVec 64).toNat + 10 * ((2 : BitVec 32).toNat * tileWidth .x) + 600 ∧
    (0xFFFFF : BitVec 64).toNat < (0x100000 : BitVec 64).toNat ∧ (0 : BitVec 32) = 0 := by
  decide

theorem test_witness_TiledBytesNeverShareAnAddress :
    1023 < 2 * tileWidth .x ∧ tiledOffset .x 2 1023 15 = tiledOffset .x 2 1023 15 ∧ 127 < 2 * tileWidth .w ∧
    tiledOffset .w 2 127 70 = tiledOffset .w 2 127 70 := by decide

theorem test_witness_TileYsOffsetsAreOneToOne :
    (1023 : BitVec 16).toNat < 1024 ∧ (63 : BitVec 16).toNat < 64 ∧
    exec (.tileYs64 1023 63) .reset = exec (.tileYs64 1023 63) .reset ∧ (511 : BitVec 16).toNat < 512 ∧
    (127 : BitVec 16).toNat < 128 ∧ (255 : BitVec 16).toNat < 256 ∧ (15 : BitVec 16).toNat < 16 ∧
    (31 : BitVec 16).toNat < 32 := ⟨by decide, by decide, rfl, by decide, by decide, by decide, by decide, by decide⟩

/-- A present and a not present entry, the last page of the GTT, an engine, one without a context, one whose context may not
run, none, one in a delivery; an address past the GTT, one past the page tables of a smaller GTT, an entry that leads into the aperture. -/
theorem test_witness_GgttWalkAnswersThePage :
    let s := withQ [(0x7C7FFFF8, 0x9001)] .reset
    let t := running (legacy true) s
    walkWaits s none = false ∧ walkWaits t (some .render) = false ∧ (t.eng .render).ctx.isSome = true ∧
    (t.eng .render).ctx = some (legacy true) ∧ iommuRefusal (legacy true) = none ∧
    iommuRefusal { adv true with iommu := { pasid12 with paside := false } } = some .pasidDisabled ∧
    (s.eng .render).ctx = none ∧ walkWaits (t.setRun .render .switching) (some .render) = true ∧
    2 ^ 32 ≤ (0x100000000 : QWord).toNat ∧
    { s.par with gsmSize := 0x100000 }.gsmSize / 8 ≤ (0x20000000 : QWord).toNat / 4096 ∧
    physOk s.par 0x9010 1 = true ∧ physOk s.par 0x4000000000 1 = false ∧
    (0xFFFFF010 : QWord).toNat < 2 ^ 32 ∧ (0xFFFFF010 : QWord).toNat / 4096 < s.par.gsmSize / 8 ∧
    bit (memReadQ s (s.par.gsmBase + 8 * ((0xFFFFF010 : QWord).toNat / 4096))) 0 = true ∧
    (0x123ABC : QWord).toNat / 4096 < s.par.gsmSize / 8 ∧
    bit (memReadQ s (s.par.gsmBase + 8 * ((0x123ABC : QWord).toNat / 4096))) 0 = false := by decide +kernel

/-- A page of 4 KB and one of 64 KB, a null page; the reads at the addresses of the statement. -/
theorem test_witness_Ppgtt32WalkAnswersThePage :
    let s (pde pte : Nat) := running (legacy false) { withQ [(0x10000010, pde), (0x20000A98, pte),
      (0x20000A80, 0x34570003)] .reset with par := { Params.reset with mmio64KEnable := true } }
    (legacy false).mode = .legacy32 ∧ ((s 0 0).eng .render).ctx = some (legacy false) ∧
    (0x80553123 : QWord).toNat < 2 ^ 32 ∧
    bits ((legacy false).pdp (nbits 0x80553123 31 30)) 38 12 * 4096 + 8 * nbits 0x80553123 29 21 = 0x10000010 ∧
    bit (memReadQ (s 0x20000003 0x34567003) 0x10000010) 0 = true ∧
    bits (0x20000003 : QWord) 38 12 * 4096 + 8 * nbits 0x80553123 20 12 = 0x20000A98 ∧
    bit (memReadQ (s 0x20000003 0x34567003) 0x20000A98) 0 = true ∧
    ((legacy false).enable64K (s 0x20000803 0).par && bit (memReadQ (s 0x20000803 0) 0x10000010) 11) = true ∧
    bits (0x20000803 : QWord) 38 12 * 4096 + 128 * nbits 0x80553123 20 16 = 0x20000A80 ∧
    walkWaits (s 0 0) (some .render) = false ∧ (61 : BitVec 6).toNat < 62 ∧ isWrite rd = false ∧
    pfmField (s 0 0) .render (some 61) = 0 ∧ Client.readOnly .other = false ∧ Client.readOnly .sampler = true ∧
    physOk (s 0 0).par 0x34567123 1 = true ∧ physOk (s 0 0).par 0x34573123 1 = true ∧
    bit (memReadQ (s 0x20000003 0x201) 0x20000A98) 9 = true := by decide +kernel

/-- A PDE that is not present, a PTE that is not, a read-only PTE that a write meets; of a 48-bit context a PML4E, a PDPE that
are not present, and a read-only 1 GB and 2 MB leaf. -/
theorem test_witness_LegacyFaultHangsTheEngine :
    let s (pde pte : Nat) := running (legacy false) (withQ [(0x10000010, pde), (0x20000A98, pte)] .reset)
    ((s 0 0).eng .render).ctx = some (legacy false) ∧ (legacy false).mode = .legacy32 ∧
    (legacy false).enable64K (s 0 0).par = false ∧ bit (memReadQ (s 0x20000002 0) 0x10000010) 0 = false ∧
    bit (memReadQ (s 0x20000003 0) 0x10000010) 0 = true ∧ bit (memReadQ (s 0x20000003 0) 0x20000A98) 0 = false ∧
    bit (memReadQ (s 0x20000003 0x34567001) 0x20000A98) 0 = true ∧
    bit (memReadQ (s 0x20000003 0x34567001) 0x20000A98) 9 = false ∧
    bit (memReadQ (s 0x20000003 0x34567001) 0x20000A98) 1 = false ∧ isWrite wr = true ∧
    walkWaits (s 0 0) (some .render) = false ∧ pfmField (s 0 0) .render (some 61) = 0 ∧
    Client.readOnly .other = false ∧
    got (s 0x20000802 0) (.ppgtt32Walk .render .sampler 61 rd 0x80553123) = some (.pageFault .notPresent .pd) := by
  decide +kernel

theorem test_witness_LegacyFault48HangsTheEngine :
    let s (e4 e3 e2 : Nat) := running (legacy true) (withQ [(0x100008, e4), (0x200010, e3), (0x300018, e2)] .reset)
    ((s 0 0 0).eng .render).ctx = some (legacy true) ∧ (legacy true).mode = .legacy48 ∧
    bits (legacy true).pml4 38 12 * 4096 + 8 * nbits va4.toNat 47 39 = 0x100008 ∧
    bits (0x200003 : QWord) 38 12 * 4096 + 8 * nbits va4.toNat 38 30 = 0x200010 ∧
    bits (0x300003 : QWord) 38 12 * 4096 + 8 * nbits va4.toNat 29 21 = 0x300018 ∧
    got (s 0 0 0) (.ppgtt48Walk .render .other 0 wr va4) = some (.pageFault .notPresent .pml4) ∧
    got (s 0x200003 0 0) (.ppgtt48Walk .render .other 0 wr va4) = some (.pageFault .notPresent .pdp) ∧
    got (s 0x200003 0x81 0) (.ppgtt48Walk .render .other 0 wr va4) = some (.pageFault .writePermission .pdp) ∧
    got (s 0x200003 0x300003 0x81) (.ppgtt48Walk .render .other 0 wr va4) = some (.pageFault .writePermission .pd) ∧
    got (s 0x200003 0x300003 0) (.ppgtt48Walk .render .other 0 wr va4) = some (.pageFault .notPresent .pd) ∧
    got (s 0x200003 0x300003 0x400003) (.ppgtt48Walk .render .other 0 wr va4) = some (.pageFault .notPresent .pt) := by
  decide +kernel

/-- The three leaf sizes reached in `test_ppgtt48_walk`: the entries at the addresses of the statement. -/
theorem test_witness_Ppgtt48WalkAnswersThePage :
    let s := running (legacy true) (withQ (tables 0x400003 0x50000003) .reset)
    let big := running (legacy true) (withQ (tables 0x40200083 0) .reset)
    (s.eng .render).ctx = some (legacy true) ∧ (legacy true).mode = .legacy48 ∧ va4.toNat < 2 ^ 48 ∧
    walkWaits s (some .render) = false ∧ physOk s.par 0x50000567 1 = true ∧ s.par.gttCacheEnable = false ∧
    pfmField s .render (some 61) = 0 ∧ Client.readOnly .other = false ∧ bits (legacy true).pml4 38 12 * 4096 + 8 * nbits va4.toNat 47 39 = 0x100008 ∧
    bit (memReadQ s 0x100008) 0 = true ∧ bits (memReadQ s 0x100008) 38 12 * 4096 + 8 * nbits va4.toNat 38 30 =
      0x200010 ∧ bit (memReadQ s 0x200010) 0 = true ∧ bit (memReadQ s 0x200010) 7 = false ∧
    bits (memReadQ s 0x200010) 38 12 * 4096 + 8 * nbits va4.toNat 29 21 = 0x300018 ∧
    bit (memReadQ s 0x300018) 0 = true ∧ bit (memReadQ s 0x300018) 7 = false ∧
    bits (memReadQ s 0x300018) 38 12 * 4096 + 8 * nbits va4.toNat 20 12 = 0x400020 ∧
    bit (memReadQ s 0x400020) 0 = true ∧ bit (memReadQ s 0x400020) 9 = false ∧ bit (memReadQ s 0x400020) 1 = true ∧
    bit (memReadQ big 0x300018) 0 = true ∧ bit (memReadQ big 0x300018) 7 = true := by decide +kernel

/-- ADEnable = 0, every entry readable, writable, user, reserved bits clear. -/
theorem test_witness_Ia32eWalkAnswersThePage :
    let s := running (adv false) (withQ (tables 0x400007 0x50000007) .reset)
    (s.eng .render).ctx = some (adv false) ∧ (adv false).mode = .advanced ∧ (adv false).adEnable = false ∧
    pfmField s .render (some 61) = 0 ∧ Client.readOnly .other = false ∧ Client.other ≠ .hdcCoherent ∧
    (adv false).supervisor = false ∧ iommuRefusal (adv false) = none ∧ walkWaits s (some .render) = false ∧
    physOk s.par 0x50000567 1 = true ∧ va4.toNat < 2 ^ 48 ∧ s.par.gttCacheEnable = false ∧
    (∀ x ∈ [0x100008, 0x200010, 0x300018, 0x400020], bit (memReadQ s x) 0 = true ∧ bit (memReadQ s x) 1 = true ∧
      bit (memReadQ s x) 2 = true ∧ bit (memReadQ s x) 7 = false ∧ (memReadQ s x).toNat &&& maskOf s.par.haw 51 = 0) ∧
    ((adv false).enable64K s.par && bit (memReadQ s 0x300018) 11) = false := by decide +kernel

/-- The same with ADEnable = 1, memory write-back. -/
theorem test_witness_Ia32eWalkSetsAccessedAndDirty :
    let s := running (adv true) (withQ (tables 0x400007 0x50000007) .reset)
    Memory.wf s.mem = true ∧ 13 ≤ s.par.haw ∧ (s.eng .render).ctx = some (adv true) ∧ (adv true).mode = .advanced ∧
    (adv true).adEnable = true ∧ iommuRefusal (adv true) = none ∧ pfmField s .render (some 61) = 0 ∧
    Client.readOnly .other = false ∧ Client.other ≠ .hdcCoherent ∧ [0x400020, 0x100008, 0x200010, 0x300018].Nodup ∧
    (adv true).iommu.nxe = false ∧ (adv true).supervisor = false ∧
    walkWaits s (some .render) = false ∧ physOk s.par 0x50000567 1 = true ∧ (adv true).enable64K s.par = false ∧
    s.par.effTypes = [] ∧
    s.par.cd = false ∧ bits (adv true).pml4 38 12 * 4096 + 8 * nbits va4.toNat 47 39 = 0x100008 ∧
    memReadQ s 0x100008 = 0x200007 ∧ memReadQ s 0x200010 = 0x300007 ∧ memReadQ s 0x300018 = 0x400007 ∧
    memReadQ s 0x400020 = 0x50000007 ∧
    ([0x200007, 0x300007, 0x400007, (0x50000007 : QWord)].all (fun x => bit x 0 && bit x 1 && bit x 2 &&
      x.toNat &&& maskOf s.par.haw 51 == 0)) = true := by decide +kernel

/-- The entries and the translations of the three table reads of `test_trtt_walk` through the 1 GB page. -/
abbrev trttReads (l1 : Nat) : Prop :=
  let s := tiled 0x20000000 0x30000000 l1
  (s.eng .render).ctx = some (legacy true) ∧ trttRefusal s (legacy true).mode 0xF00012345678 = none ∧
    iommuRefusal (legacy true) = none ∧ walkWaits s (some .render) = false ∧ s.oldBytes = [] ∧
    bits s.trtt.l3ptr 47 16 * 65536 + 8 * nbits 0xF00012345678 43 35 = 0x10000000 ∧
    bits (0x20000000 : QWord) 47 12 * 4096 + 8 * nbits 0xF00012345678 34 26 = 0x20000020 ∧
    bits (0x30000000 : QWord) 47 12 * 4096 + 4 * nbits 0xF00012345678 25 16 = 0x300008D0 ∧
    memRead s 0x10000000 8 = 0x20000000 ∧ memRead s 0x20000020 8 = 0x30000000 ∧ memRead s 0x300008D0 4 = l1 ∧
    ∀ x ∈ [(0x10000000, 8), (0x20000020, 8), (0x300008D0, 4)], inTrva s x.1 = false ∧ physOk s.par x.1 x.2 = true ∧
      (stage2 s false (some .render) .other (some (legacy true)) .legacy48 x.1 .read).1 =
        .ok (.phys x.1 .size1G false false false) true

/-- The same for a walk that an L3 entry, or the L2 entry, ends. -/
abbrev trttEnds (l3 l2 : Nat) : Prop :=
  let s := tiled l3 l2 0
  (s.eng .render).ctx = some (legacy true) ∧ trttRefusal s (legacy true).mode 0xF00012345678 = none ∧
    walkWaits s (some .render) = false ∧ s.oldBytes = [] ∧ s.par.trttBothBits = .invalid ∧
    memRead s 0x10000000 8 = l3 ∧ memRead s 0x20000020 8 = l2 ∧
    ∀ x ∈ [(0x10000000, 8), (0x20000020, 8)], inTrva s x.1 = false ∧ physOk s.par x.1 x.2 = true ∧
      (stage2 s false (some .render) .other (some (legacy true)) .legacy48 x.1 .read).1 =
        .ok (.phys x.1 .size1G false false false) true

/-- A null, an invalid and a mapped tile; each ending at an L3 and at an L2 entry. -/
theorem test_witness_TrttWalkFindsTheTile :
    (trttReads 1 ∧ trttReads 2 ∧ trttReads 0xABCDEF) ∧ (trttEnds 1 0 ∧ trttEnds 2 0 ∧ trttEnds 3 0) ∧
    (trttEnds 0x20000000 1 ∧ trttEnds 0x20000000 2 ∧ trttEnds 0x20000000 3) ∧
    ∀ l3 l2 l1 x n w t,
      (stage2 (tiled l3 l2 l1) false (some .render) .other (some (legacy true)) .legacy48 x .read).1 = t →
      stage2 { tiled l3 l2 l1 with freeCount := n, walkerCtl := w } false (some .render) .other
        (some (legacy true)) .legacy48 x .read = (t, { tiled l3 l2 l1 with freeCount := n, walkerCtl := w }) :=
  ⟨by decide +kernel, by decide +kernel, by decide +kernel, fun _ _ _ _ _ _ _ h => stage2_legacy48_with _ _ _ _ _ _ _ _ _ h⟩

theorem test_witness_TlbInvalidationRemovesTheScope :
    (cached.eng .render).inPasid 0x12 = true ∧ (cached.eng .vcs0).inPasid 0x12 = false := by decide

/-- Each clause: no message, an invalidation, no credit, an answer. -/
theorem test_witness_HdcPageRequestIsAnswered :
    let c := { adv true with faultModel := 2 }
    let s := running c (withQ (tables 0x400007 0x50000007) .reset)
    let full : State := { s with hdcPorts := [⟨0, 2, [⟨1, 0⟩, ⟨2, 0⟩]⟩] }
    let s0 : State := { s with hdcPorts := setOutstanding s.hdcPorts 0 2 (outstandingOf s.hdcPorts 0 2 ++ [⟨0x5A, 0x8080604⟩]) }
    let t := translate s0 none (some .render) (reqOf req).client (some c) c.mode (req.vpage.toNat * 4096) wr
    ({ req with valid := false } : PageReqMsg).valid = false ∧
    ({ s with hdcInvalidating := true } : State).hdcInvalidating = true ∧
    2 ≤ (outstandingOf full.hdcPorts req.slice req.hdc).length ∧ req.valid = true ∧ s.hdcInvalidating = false ∧
    (outstandingOf s.hdcPorts req.slice req.hdc).length < 2 ∧ (s.eng .render).ctx = some c ∧
    engineHolds s (some .render) = false ∧ iommuRefusal c = none ∧ c.faultModel.toNat ≠ 1 ∧
    t.1.t = .ok (.phys 0x50000000 .size4K false false false) true ∧ physOk t.2.par 0x50000000 1 = true ∧ t.2.hdcInvalidating = false := by decide +kernel

theorem test_witness_HdcPageResponseIsClaimed :
    respMsg.valid = true ∧ asked.hdcInvalidating = false ∧ asked.hdcResponses = [] ++ respOf respMsg resp.xlate :: [] ∧
    respOf respMsg resp.xlate = resp ∧ (respOf respMsg none).xlate = none ∧ State.reset.hdcResponses = [] ∧
    outstandingOf asked.hdcPorts respMsg.slice respMsg.hdc = [] ++ ⟨respMsg.tracking, 0x8080604⟩ :: [] ∧
    outstandingOf State.reset.hdcPorts respMsg.slice respMsg.hdc = [] ∧ asked.hdcQueue = [] ∧
    ({ asked with hdcQueue := [reqOf req] } : State).hdcQueue = [] ++ reqOf req :: [] ∧
    (reqOf req).slice = respMsg.slice ∧ (reqOf req).hdc = respMsg.hdc := by decide

theorem test_witness_HdcInvalidationHandshake :
    let s : State := { asked with hdcInvalidating := true }
    let t : State := { s with hdcAcks := [(0, 2), (0, 0), (0, 1)] }
    asked.hdcInvalidating = false ∧ s.hdcInvalidating = true ∧ (∀ h ∈ t.par.hdcs, h ∈ t.hdcAcks) ∧
    (∃ h ∈ s.par.hdcs, h ∉ s.hdcAcks) ∧ t.waiting = [] := by decide

/-- Canonical memory with a present entry in it; the last QWord below 2^HAW. -/
theorem test_witness_FinalEntryPageUpdates :
    Memory.wf (withQ [(0x400020, 0x50000007)] .reset).mem = true ∧ (0x7FFFFFFFF8 : BitVec 64).toNat % 8 = 0 ∧
    (0x7FFFFFFFF8 : BitVec 64).toNat < 2 ^ State.reset.par.haw := by decide +kernel

theorem test_witness_IntermediateEntryPageUpdates :
    Memory.wf (withQ [(0x300018, 0x400087)] .reset).mem = true ∧ (0x300018 : BitVec 64).toNat % 8 = 0 ∧
    (0x300018 : BitVec 64).toNat < 2 ^ State.reset.par.haw := by decide +kernel

theorem test_witness_UnopcodedAtomicUpdates :
    Memory.wf (withQ [(0x400020, 0x50000006)] .reset).mem = true ∧ (0x7FFFFFFFF8 : BitVec 64).toNat % 8 = 0 ∧
    (0x7FFFFFFFF8 : BitVec 64).toNat < 2 ^ State.reset.par.haw := by decide +kernel

theorem test_witness_SimpleFormatsDecode :
    painted.palette[bits (0xC3 : BitVec 8) 3 0]? = some 3 ∧ painted.palette[bits (0xC3 : BitVec 8) 7 4]? = some 12 ∧
    painted.palette[bits (0xFFFF : BitVec 16) 15 8]? = some 255 := by decide +kernel

/-- An individual block, a differential one, one whose sums overflow. -/
theorem test_witness_Etc1Decodes :
    let v := b64 [0x83, 0x7C, 0x39, 0x47]
    bit (0 : BitVec 64) 25 = false ∧ bit v 25 = true ∧ 0 ≤ (diffSums v).r ∧ (diffSums v).r ≤ 31 ∧
    0 ≤ (diffSums v).g ∧ (diffSums v).g ≤ 31 ∧ 0 ≤ (diffSums v).b ∧ (diffSums v).b ≤ 31 ∧
    bit (b64 [0xF9, 0, 0, 2]) 25 = true ∧ diffInRange (b64 [0xF9, 0, 0, 2]) = false := by decide +kernel

/-- Blocks of the T, H and planar modes. -/
theorem test_witness_Etc2SelectsItsModes :
    let t := b64 [0xF2, 0x5C, 0x37, 0x97, 0x00, 0xFF, 0xF0, 0xF0]
    let h := b64 [0x1B, 0xF9, 0xB5, 0x4E, 0x1B, 0xE4, 0x00, 0xFF]
    let p := b64 [0, 0, 0xF9, 2]
    bit t 25 = true ∧ in31 (diffSums t).r = false ∧ bit h 25 = true ∧ in31 (diffSums h).r = true ∧
    in31 (diffSums h).g = false ∧ bit p 25 = true ∧ in31 (diffSums p).r = true ∧ in31 (diffSums p).g = true ∧
    in31 (diffSums p).b = false := by decide +kernel

/-- The opaque bit, the planar mode, indices 1, 3, 2, and 0 of a differential block. -/
theorem test_witness_Etc2PunchThroughAlpha :
    let v := b64 [0x83, 0x7C, 0x39, 0x45, 0x12, 0x34, 0x56, 0x78]
    bit (b64 [0, 0, 0, 2]) 25 = true ∧ etc2Mode true (b64 [0, 0, 0xF9, 0]) = .planar ∧ bit v 25 = false ∧
    etc2Mode true v = .differential ∧ etcIndex v ⟨0, 0⟩ = 0 ∧ etcIndex v ⟨2, 0⟩ = 2 ∧ etcIndex v ⟨2, 1⟩ = 1 ∧
    etcIndex v ⟨0, 1⟩ = 3 ∧ etcIndex (b64 [0xF2, 0x5C, 0x37, 0x95]) ⟨0, 0⟩ = 0 ∧
    etc2Mode true (b64 [0xF2, 0x5C, 0x37, 0x95]) = .tMode := by decide +kernel

theorem test_witness_Fxt1MixedAndAlphaDecode :
    bit (0xAFFFE0003C38AA85E4E4E4E4E4E4E4E4 : BitVec 128) 124 = false ∧
    bit (0xBFFFE0003C38AA85E4E4E4E4E4E4E4E4 : BitVec 128) 124 = true := by decide +kernel

theorem test_witness_DxtBlocksDecode :
    bits (b64 [0, 0xF8, 0, 0]) 15 0 > bits (b64 [0, 0xF8, 0, 0]) 31 16 ∧ bits (0 : BitVec 64) 15 0 ≤ bits (0 : BitVec
      64) 31 16 := by decide

/-- A block of each mode value (R1001). -/
theorem test_witness_Bc6hSelectsItsMode :
    [0, 1, 2, 6, 10, 14, 18, 22, 26, 30, 3, 7, 11, 15, 19, 23, 27, 31].map (fun k =>
      (BitVec.ofNat 128 (0x7FE0 + k)).toNat % 32) =
      [0, 1, 2, 6, 10, 14, 18, 22, 26, 30, 3, 7, 11, 15, 19, 23, 27, 31] := by decide +kernel

/-- A block of each mode (R1042). -/
theorem test_witness_Bc7SelectsItsMode :
    ∀ k ∈ [0, 1, 2, 3, 4, 5, 6, 7], (BitVec.ofNat 128 (2 ^ k)).getLsbD k = true ∧
      ∀ j ∈ List.range k, (BitVec.ofNat 128 (2 ^ k)).getLsbD j = false := by decide +kernel

/-- A value that is no format, a 2D one, a 3D one with and without support, void extents, an error block and ordinary
blocks of each endpoint mode, with and without blue contraction. -/
theorem test_witness_AstcAnswersEveryListedFormat :
    let ldr := b128 [0xFC, 0xFD, 0xFF, 0xFF, 0xFF, 0xFF, 0xFF, 0xFF]
    let hdr := b128 [0xFC, 0xFF, 0xFF, 0xFF, 0xFF, 0xFF, 0xFF, 0xFF]
    astcFormat 1 = none ∧ (astcFormat 0x1C0).map AstcFormat.is3D = some true ∧ State.reset.par.astc3D = false ∧
    (astcFormat 0x040).map (fun f => (f.bs, f.bt, f.br)) = some (4, 4, 1) ∧
    (astcFormat 0x040).map AstcFormat.is3D = some false ∧ (astcFormat 0x040).map AstcFormat.srgb = some false ∧
    bits ldr 8 0 = 0x1FC ∧ bits ldr 63 10 = 2 ^ 54 - 1 ∧ bit ldr 9 = false ∧ bit hdr 9 = true ∧
    bits hdr 63 10 = 2 ^ 54 - 1 ∧ (astcFormat 0x140).map AstcFormat.hdr = some true ∧ bits (0x50 : BitVec 128) 3 0 = 0 ∧
    astcDims (bits (b128 [0, 0, 0, 0, 6, 6, 0x19]) 39 32) (bits (b128 [0, 0, 0, 0, 6, 6, 0x19]) 47 40)
      (bits (b128 [0, 0, 0, 0, 6, 6, 0x19]) 50 48) = true ∧
    (∀ c ∈ [0, 4, 8, 12], bits (BitVec.ofNat 128 (0x42 + c * 2 ^ 13)) 12 0 = 0x042 ∧
      bits (BitVec.ofNat 128 (0x42 + c * 2 ^ 13)) 16 13 = c) ∧ bits (0x20000 : BitVec 128) 24 17 = 1 ∧
    bits (0x20000 : BitVec 128) 32 25 = 0 := by decide +kernel

/-- The largest offset below 2^38 and the first above; V a multiple of 4 and not, inside the structure and not; the
largest pitch and one more. -/
theorem test_witness_BufferAddresses :
    (2 ^ 38 - 1 : BitVec 64).toNat < 2 ^ 38 ∧ 2 ^ 38 ≤ (2 ^ 38 : BitVec 64).toNat ∧
    (4 : BitVec 32).toNat % 4 = 0 ∧ (7 : BitVec 32).toNat % 4 ≠ 0 ∧ (60 : BitVec 32).toNat < (64 : BitVec 32).toNat ∧
    (64 : BitVec 32).toNat ≤ (64 : BitVec 32).toNat ∧ (2048 : BitVec 32).toNat ≤ 2048 ∧
    2048 < (2049 : BitVec 32).toNat ∧
    (4 : BitVec 32).toNat * (2048 : BitVec 32).toNat + (0 : BitVec 32).toNat < 2 ^ 38 ∧
    2 ^ 38 ≤ (0x8000000 : BitVec 32).toNat * (2048 : BitVec 32).toNat + (0 : BitVec 32).toNat := by decide +kernel

/-- Aligned and misaligned bases, offsets below 2^38 and above, the last LOD and one more. -/
theorem test_witness_OneDimensionalSurfaceAddress :
    surf1DOffset line < 2 ^ 38 ∧ 2 ^ 38 ≤ surf1DOffset { line with r := 0xFFFFFFFF, qpitch := 0xFFFFFFFF } ∧
    (0x10000 : BitVec 64).toNat % 65536 = 0 ∧ (0x10000 : BitVec 64).toNat % 4096 = 0 ∧
    (6 : BitVec 4).toNat ≤ line.mips.toNat ∧ ¬ (7 : BitVec 4).toNat ≤ line.mips.toNat ∧ (8 : BitVec 64).toNat % 4096 ≠ 0 := by decide +kernel

/-- Aligned, too large, misaligned; a linear surface at LOD 0 and at LOD 1. -/
theorem test_witness_TwoDimensionalSurfaceCompletes :
    let l : Surf2D := { surf with tile := .linear, lod := 1, width := 100, height := 60 }
    baseAligned2D surf = true ∧ stated2D surf = true ∧ surf2DOffset surf < 2 ^ 38 ∧
    stated2D { surf with lod := 6, mips := 6 } = true ∧ stated2D { surf with lod := 7, mips := 6 } = false ∧
    stated2D { surf with r := 0xFFFFFFFF, qpitch := 0xFFFFFFFF } = true ∧
    l.interleaved = false ∧ l.p ≠ 0 ∧ l.q ≠ 0 ∧ l.i ≠ 0 ∧ l.j ≠ 0 ∧ l.ss = 0 ∧ l.lod.toNat ≤ l.mips.toNat ∧
    2 ^ 38 ≤ surf2DOffset { surf with r := 0xFFFFFFFF, qpitch := 0xFFFFFFFF } ∧
    baseAligned2D { surf with base := 0x800 } = false ∧ l.lod.toNat < 2 ∧ l.tr = .none ∧ l.samples = .s1 ∧
    l.j.toNat * ((max 1 l.height.toNat + l.j.toNat - 1) / l.j.toNat) % l.q.toNat = 0 ∧ surf2DOffset l < 2 ^ 38 := by
  decide +kernel

theorem test_witness_TiledSurfaceIsTheTileOperation :
    (∀ t ∈ [TileMode.tileX, .tileY, .tileW], let a : Surf2D := { surf with tile := t }
      stated2D a = true ∧ a.tr = .none ∧ surf2DOffset a < 2 ^ 38 ∧
        bytesUV2D a = ((160 : BitVec 32).toNat, (37 : BitVec 32).toNat)) ∧
    surf.pitch.toNat = (4 : BitVec 32).toNat * 128 ∧
    surf.pitch.toNat = (1 : BitVec 32).toNat * 512 ∧ surf.pitch.toNat = (8 : BitVec 32).toNat * 64 := by decide +kernel

/-- TileYS and TileYF surfaces of every element size. -/
theorem test_witness_TiledResourceSurfaceUsesTheSwizzle :
    ∀ tr ∈ [TrMode.ys, .yf], ∀ b ∈ [Bpe.b8, .b16, .b32, .b64, .b128],
      let a : Surf2D := { surf with tr := tr, bpe := b, pitch := 1024 }
      a.samples = .s1 ∧ stated2D a = true ∧ baseAligned2D a = true ∧ surf2DOffset a < 2 ^ 38 := by decide +kernel

/-- Aligned, misaligned, too large; LOD 0 outside the mip tail of a TileYF surface. -/
theorem test_witness_ThreeDimensionalSurfaceAddress :
    baseAligned2D surf = true ∧ stated3D surf = true ∧
    stated3D { surf with lod := 7, mips := 6 } = false ∧
    stated3D { surf with r := 0xFFFFFFFF, qpitch := 0xFFFFFFFF } = true ∧ surf3DOffset surf < 2 ^ 38 ∧
    baseAligned2D { surf with base := 0x800 } = false ∧
    2 ^ 38 ≤ surf3DOffset { surf with r := 0xFFFFFFFF, qpitch := 0xFFFFFFFF } ∧
    ({ surf with tr := .yf } : Surf2D).tr ≠ .none ∧ surf.lod = 0 ∧ 0 < surf.tail.toNat := by decide +kernel

/-- Fields of 4-sample elements: all ones; the first 0; the first not 0 and the asked one ones, 0 or neither. The
padding requests of `padOf` are not of the programming note. -/
theorem test_witness_McsQuiltCubeAndPadding :
    let f (m j : Nat) := m / 2 ^ (2 * j) % 2 ^ 2
    (∀ j ∈ List.range 4, f 0xFF j = 3) ∧ (f 0xE4 0 = 0 ∧ f 0xE4 3 ≠ 0) ∧ (f 0xD9 0 ≠ 0 ∧ f 0xD9 3 = 3) ∧
    (f 0xD9 0 ≠ 0 ∧ f 0xD9 1 = 2) ∧ (f 0xC1 0 ≠ 0 ∧ f 0xC1 1 = 0) ∧ (3 : BitVec 4).toNat < 2 ^ 2 ∧
    Samples.s4 ≠ .s1 ∧ sampleCount .s4 ≤ (4 : BitVec 4).toNat ∧ (5 : BitVec 3).toNat < 6 ∧ 6 ≤ (6 : BitVec 3).toNat ∧
    0 < (4 : BitVec 16).toNat := by decide

/-- An empty PML4 table, a context with PRE set: fault models 01 and 10; a walk with A/D management that faults at the PTE, and
walks without that fault at each level by each code. -/
theorem test_witness_FaultAndHaltEntry :
    (∀ m ∈ [(1 : BitVec 2), 2],
      let c := { adv false with faultModel := m }
      let s := running c { State.reset with reg404C := 1 }
      (s.eng .render).ctx = some c ∧ c.mode = .advanced ∧ c.iommu.preCtx = true ∧ c.adEnable = false ∧
      iommuRefusal c = none ∧ walkWaits s (some .render) = false ∧ Client.readOnly .other = false ∧
      tlbCount (tlbOf (some .render) .other) (s.eng .render).facts < tlbCapacity s.par (tlbOf (some .render) .other) ∧
      s.par.gttCacheEnable = false ∧ va4.toNat < 2 ^ 48 ∧ pfmField s .render (some 61) = 0 ∧
      (ia32eWalk s .memory (some .render) c va4.toNat wr).1 = .fault .notPresent .pml4 false ∧
      (c.faultModel = 1 ∧ Client.other ≠ .hdcCoherent ∨ c.faultModel = 2 ∧ bit s.reg404C 0 = true)) ∧
    (ia32eWalk (withQ (tables 0x400007 0x50000005) .reset) .memory (some .render) (adv true) va4.toNat wr).1 =
      .fault .writePermission .pt false := by decide +kernel

theorem test_witness_FaultLevels :
    let f (e4 e3 e2 e1 : Nat) (a : Acc) := (ia32eWalk
      (withQ [(0x100008, e4), (0x200010, e3), (0x300018, e2), (0x400020, e1)] .reset) .memory (some .render) (adv false)
      va4.toNat a).1
    f 0x200087 0 0 0 rd = .fault .notPresent .pml4 false ∧ f 0x200003 0 0 0 rd = .fault .privilege .pml4 true ∧
    f 0x200005 0 0 0 wr = .fault .writePermission .pml4 false ∧
    f 0x200007 0x2087 0 0 rd = .fault .notPresent .pdp false ∧ f 0x200007 0x85 0 0 wr = .fault .writePermission .pdp false ∧
    f 0x200007 0x300007 0x83 0 rd = .fault .privilege .pd true ∧
    f 0x200007 0x300007 0x400007 0 rd = .fault .notPresent .pt false ∧
    f 0x200007 0x300007 0x400007 0x50000003 rd = .fault .privilege .pt true := by decide +kernel

/-- A page fault of coherent HDC and of the instruction cache, first and later. -/
theorem test_witness_FaultAndStreamEntry :
    let c := { adv false with faultModel := 2 }
    let s := running c .reset
    (s.eng .render).ctx = some c ∧ c.mode = .advanced ∧ c.iommu.preCtx = true ∧ c.adEnable = false ∧
    iommuRefusal c = none ∧ walkWaits s (some .render) = false ∧ isWrite rd = false ∧
    tlbCount (tlbOf (some .render) .ic) (s.eng .render).facts < tlbCapacity s.par (tlbOf (some .render) .ic) ∧
    pfmField s .render (some 61) = 0 ∧
    (ia32eWalk s .memory (some .render) c va4.toNat rd).1 = .fault .notPresent .pml4 false ∧
    c.faultModel = 2 ∧ bit s.reg404C 0 = false ∧ (Client.ic = .hdcCoherent ∨ Client.ic = .ic) := by decide +kernel

/-- An engine hung by a walk that waits. -/
def hung : State :=
  let f : PageFault :=
    { code := .notPresent, level := .pt, va := 0x8080604000, acc := rd, engine := some .render, ggtt := false
      us := false, pasid := 0, contextID := 7 }
  { (running (legacy true) .reset).setRun .render (.hung f true) with
    inbox := [.faultContinue .render], waiting := [⟨.walk ⟨some .render, false, .other, some 0, rd, va4.toNat⟩, true, none⟩] }

theorem test_witness_ReturnFromHaltAndHang :
    let s := doing halted (.pageResponse 0x12 0 0)
    (findRequest s 0).map (fun r => (r.mode, r.last, r.engine)) = some (.halt, false, some .render) ∧
    (match (s.eng .render).run with | .halted _ => true | _ => false) = true ∧ s.missBlocked = some .render ∧
    s.outstanding.all (fun q => decide (q.prgIndex ≤ 0)) = true ∧
    (let q := s.outstanding.map (fun q => { q with prgIndex := 5 })
     let u := { s with outstanding := s.outstanding ++ q, waiting := [] }
     findRequest u 0 = s.outstanding.head? ∧ u.outstanding.any (fun q => q.engine == some .render && q.mode == .halt &&
       decide (0 < q.prgIndex)) = true ∧ u.waiting = [] ∧
     (next u).map (fun t => (t.eng .render).run) = some (s.eng .render).run) ∧
    hung.inbox = [.faultContinue .render] ∧ (match (hung.eng .render).run with | .hung _ h => h | _ => false) = true ∧
    hung.waiting = [] ++ ⟨.walk ⟨some .render, false, .other, some 0, rd, va4.toNat⟩, true, none⟩ :: [] ∧
    (match State.reset.engines.render.run with | .hung _ _ => true | _ => false) = false ∧
    (let f : PageFault := faultOf (some .render) (some (legacy true)) false va4.toNat rd .notPresent .pt false
     let l := doing ((loseTable (running (legacy true) .reset) .render).setRun .render (.hung f false)) (.faultContinue .render)
     l.waiting = [] ∧ (next l).map (fun t => ((t.eng .render).run, (t.eng .render).needsReset)) =
       some (.running, true)) := by decide +kernel

/-- A request of a context that has left its engine. -/
def answered : State :=
  { State.reset with outstanding := halted.outstanding, nextPrg := 1, inbox := [.pageResponse 0x12 0 15]
                     awayContexts := [⟨.bcs, 0x12, 9⟩] }

theorem test_witness_PageRequestStatusAndResponses :
    (doing .reset (.cfgWrite 0x304 2 1)).inbox = [.cfgWrite (State.reset.par.prsCapOfs + 4) 2 1] ∧
    State.reset.par.prsCapOfs % 4 = 0 ∧ State.reset.par.pasidCapOfs ≠ State.reset.par.prsCapOfs ∧
    State.reset.par.atsCapOfs ≠ State.reset.par.prsCapOfs ∧ findRequest .reset 5 = none ∧
    (findRequest answered 0).map (fun r => (r.pasid, r.prgIndex, r.terminating, r.contextID)) =
      some (0x12, 0, false, 7) ∧
    answered.waiting = [] ∧ (∀ g ∈ allEngines, (answered.eng g).inPasid 0x12 = false) ∧
    isResident answered 7 = false ∧ isResident answered 9 = false ∧
    (let s := doing halted (.pageResponse 0x12 0 15)
     (findRequest s 0).map (fun r => r.terminating) = some false ∧ (s.eng .render).ctx = some (adv true) ∧
      (s.eng .render).inPasid 0x12 = true ∧
      (∀ g ∈ [Engine.vcs0, .vcs1, .vecs, .bcs], (s.eng g).inPasid 0x12 = false) ∧
      ∀ w ∈ s.waiting, w.isOf .render = true ∧ w.table = none) := by decide +kernel

/-- A halted render engine, reset; the same state with another engine's name. -/
theorem test_witness_EngineResetTakesTheContextOut :
    let s := doing { halted with pasidState := [(0x12, 1)] } (.engineReset .render)
    s.inbox = [.engineReset .render] ∧ (∀ w ∈ s.waiting, w.req.engine = some .render) ∧
    (s.eng .render).ctx = some (adv true) ∧ (adv true).advanced = true ∧ (s.pasidState.map Prod.fst).Nodup ∧
    (∀ w ∈ State.reset.waiting, w.req.engine = some .bcs) := by decide +kernel

/-- A delivery: the descriptor of an advanced context of PASID 0x12 and of a legacy one. -/
def delivering (element : QWord) : State :=
  let s : State := { State.reset with iommu := [pasid12], inbox := [.csRegWrite .render 0x4004 0x00020002] }
  s.setEng .render { s.eng .render with run := .switching, desc := ⟨element, 0x12, 0, 0, 0⟩ }

theorem test_witness_ContextDelivery :
    let c := ctxOfDescriptor ((delivering 0x700000041).eng .render).desc (findIommu [pasid12] 0 0x12)
    let l := ctxOfDescriptor ((delivering 0x700000109).eng .render).desc (.absent 0 0x12)
    ((delivering 0x700000041).eng .render).run = .switching ∧ messageOffset .render = 0x4004 ∧
    (delivering 0x700000041).waiting = [] ∧
    bit (0x00020002 : DWord) 1 = true ∧ bit (0x00020002 : DWord) 17 = true ∧
    (bit (0x00020002 : DWord) 0 && bit (0x00020002 : DWord) 16) = false ∧ c.valid = true ∧ c.advanced = true ∧
    c.faultModel = 1 ∧ c.iommu.paside = true ∧ c.iommu.neste = false ∧ l.valid = true ∧ l.advanced = false ∧
    l.faultModel = 0 := by
  decide +kernel

/-! ### Accesses -/

/-- A sampler's read of one byte of the render engine, which also touches another. -/
def sampling (va other : Nat) : MemAccess :=
  { engine := some .render, client := .sampler, slice := 0, hdc := 0, space := .virtual, mocs := none, useGgtt := false,
    tileX := false, display := false, va := va, op := .vread 1, later := [], around := [other], tag := 0 }

/-- An offset of 2^38 - 1 is answered by every tile function and by a question about a surface, one of 2^38 is refused (R1200,
U35). -/
theorem test_offsets_below_2_38 :
    let at_ (i : Instr) : Option Result := match exec i .reset with | .next t => some t.out | _ => none
    let top : Option Result := some (.address (2 ^ 38 - 1))
    let far (q : Query) : Option Refusal := match answerQuery q .reset with | .error r => some r | .ok _ => none
    [at_ (.tileLinear 0 0x80000000 0x7FFFFFFF 127), at_ (.tileX 0 0x100000 0x1FFFFFFF 511),
      at_ (.tileY 0 0x100000 0x7FFFFFF 2047), at_ (.tileW 0 0x100000 0x3FFFFFF 4095)] = [top, top, top, top] ∧
    [exec (.tileLinear 0 0x80000000 0 128) .reset, exec (.tileX 0 0x100000 0 512) .reset,
      exec (.tileY 0 0x100000 0 2048) .reset, exec (.tileW 0 0x100000 0 4096) .reset].all
        (fun r => match r with | .refused x => x == .offsetTooLarge | _ => false) = true ∧
    [far (.stencilByte 0 0x100000 0 4095), far (.stencilByte 0 0x100000 0 4096),
      far (.chroma (.interleaved 0x1000 0x1000 0) true true 0 0x4000000 2),
      far (.ccs3D 4 4 1 1 128 0x20000000 0 0 0 4)] =
      [none, some .offsetTooLarge, some .offsetTooLarge, some .offsetTooLarge] := by
  decide +kernel

/-- Another byte in an invalid tile: one event, and the read is made; one at the top of memory is refused (R1286, R1326,
U16). -/
theorem test_over_read_is_a_read :
    let main : Touch := ⟨0x1000, .phys 0x5000 .size4K false false false, none⟩
    let ok (ts : List Touch) : Option (List Event × Nat × Nat) :=
      match finishAccess .reset (sampling 0x1000 0x20000) main [] ts with
      | .ok t => some (t.events.driver, t.nullTileCount, t.returns.length)
      | .error _ => none
    ok [⟨0x20000, .nullPage, some .invalid⟩, ⟨0x20001, .nullPage, some .invalid⟩] =
      some ([.trttInvalidTile 0x20000], 0, 1) ∧
    ok [⟨0x2000, .phys State.reset.par.topOfMemory .size4K false false false, none⟩] = none := by decide +kernel

/-- While a client waits for the fault of a page, its TLB entry of the page serves no later access of it, and one of
another client it does (R1334(b)). -/
theorem test_halted_client_waits_for_its_page :
    let f : PageFault := ⟨.writePermission, .pt, 0x1000, .write, some .render, false, false, 0x12, 7⟩
    let e : TlbEntry := ⟨1, .size4K, 0x5000, false, false, false, false, false, false⟩
    let s : State := { State.reset with waiting := [⟨.access (sampling 0x1000 0x1000), true, none⟩] }
    let t := s.setEng .render { s.eng .render with run := .halted f, facts := [.leaf .l3 false e] }
    (stage2 t true (some .render) .sampler (some (adv true)) .advanced 0x1008 .read).1 = .blocked ∧
    faultPending t (some .render) .ic 0x1008 = false ∧ faultPending t (some .render) .sampler 0x2000 = false := by
  decide +kernel

/-- A data port whose write at one page has faulted at another, behind TR-TT: its mini-TLB serves neither page, and it serves
a third; after the fault of a table read it still does not serve the page of the write (R1334(b)). -/
theorem test_mini_tlb_waits_too :
    let f : PageFault := ⟨.writePermission, .pt, 0x1000, .write, some .render, false, false, 0x12, 7⟩
    let port (va : Nat) : MemAccess := { sampling va va with client := .hdcCoherent }
    let s (table : Option Nat) : State := { State.reset with waiting := [⟨.access (port 0x5000), true, table⟩] }
    let t (table : Option Nat) : State := (s table).setEng .render { (s table).eng .render with run := .halted f }
    (miniPending (t none) (port 0x1008), miniPending (t none) (port 0x5008), miniPending (t none) (port 0x6008)) =
      (true, true, false) ∧
    (miniPending (t (some 1)) (port 0x1008), miniPending (t (some 1)) (port 0x5008)) = (false, true) := by
  decide +kernel

/-- An atomic of 16 bytes carries beyond 8 bytes (R570, R792); one that crosses into a null page is one action: zeros are read
there, and nothing is written (R570, R500). -/
theorem test_wide_and_split_atomics :
    rmwBytes 16 (.add 1) (List.replicate 8 0xFF ++ List.replicate 8 0) =
      List.replicate 8 0 ++ [1] ++ List.replicate 7 0 ∧
    (let a : MemAccess := { sampling 0x1FF8 0 with op := .vatomic 16 (.add (2 ^ 64 + 7)), later := [(0x2000, 8)], around := [] }
     match finishAccess .reset a ⟨0x1FF8, .phys 0x5FF8 .size4K false false false, none⟩ [⟨0x2000, .nullPage, some .null⟩] [] with
     | .ok t => some (t.mem, t.returns.map (fun r => (r.data.length, r.null)), t.nullTileCount)
     | .error _ => none) = some ([⟨0x5FF8, 7⟩], [(16, true)], 1) ∧
    pagePieces 3 0x1FF8 16 = [(0x1FF8, 8), (0x2000, 8)] := by
  decide +kernel

/-- A physical address needs no context (R110, R230); a virtual one does. -/
theorem test_physical_access_without_context :
    accessProgramming .reset { sampling 0 0 with space := .physical true } none = none ∧
    accessProgramming .reset (sampling 0 0) none = some .noResidentContext := by decide +kernel

/-- A question about a 3D ASTC surface is refused where there are none (R1080, U32). -/
theorem test_astc3d_surface_is_refused :
    (match answerQuery (.alignUnit (.astc 4 4 4)) .reset with | .error r => r == .astc3DUnsupported | .ok _ => false) = true ∧
    (match answerQuery (.alignUnit (.astc 4 4 1)) .reset with | .error _ => Result.none | .ok t => t.out) =
      .numbers [4, 16] := by
  decide +kernel

end Sys2Proof.Tests
end

section
/-! SUPPORT. The register files and the parameters: how a masked write acts on a field, which part of the state
`RegsOk` speaks of, and what each update of that part has to show. -/
namespace Sys2Proof.Machine

/-! ### Masked writes -/

/-- A field of a merged register stays small if it was small and the mask is small there. -/
theorem merge_field_lt {m old v : DWord} {a b n : Nat} (ho : (old.toNat >>> a) % 2 ^ b < 2 ^ n)
    (hm : (m.toNat >>> a) % 2 ^ b < 2 ^ n) : ((merge m old v).toNat >>> a) % 2 ^ b < 2 ^ n := by
  simp only [merge, BitVec.toNat_or, BitVec.toNat_and, Nat.shiftRight_or_distrib, Nat.shiftRight_and_distrib,
    Nat.or_mod_two_pow, Nat.and_mod_two_pow]
  exact Nat.or_lt_two_pow (Nat.lt_of_le_of_lt Nat.and_le_left ho) (Nat.and_lt_two_pow _ hm)

/-- The whole register as such a field. -/
theorem merge_lt {m k old v : DWord} {n : Nat} (ho : old.toNat < 2 ^ n) (hk : k.toNat < 2 ^ n) :
    (merge (m &&& k) old v).toNat < 2 ^ n := by
  simp only [merge, BitVec.toNat_or, BitVec.toNat_and]
  exact Nat.or_lt_two_pow (Nat.lt_of_le_of_lt Nat.and_le_left ho) (Nat.and_lt_two_pow _ (Nat.and_lt_two_pow _ hk))

/-- A 16-bit register in the upper half of a DWord keeps the bits `j` clear that the mask `k` does not reach. -/
theorem upperHalf_merge_and {c j : BitVec 16} {m k v : DWord} (hc : c &&& j = 0)
    (hk : k.extractLsb' 16 16 &&& j = 0) :
    BitVec.ofNat 16 ((merge (m &&& k) (BitVec.ofNat 32 (c.toNat * 65536)) v).toNat / 65536) &&& j = 0 := by
  have upper (x : DWord) : BitVec.ofNat 16 (x.toNat / 65536) = x.extractLsb' 16 16 := by
    rw [BitVec.extractLsb', Nat.shiftRight_eq_div_pow]
  have old : (BitVec.ofNat 32 (c.toNat * 65536)).extractLsb' 16 16 = c := by
    apply BitVec.eq_of_toNat_eq
    simp [Nat.shiftRight_eq_div_pow]
    omega
  rw [upper]
  simp only [merge, BitVec.extractLsb'_or, BitVec.extractLsb'_and, old]
  ext i hi
  have hci := congrArg (·.getLsbD i) hc
  have hki := congrArg (·.getLsbD i) hk
  simp at hci hki ⊢
  grind

/-! ### What `RegsOk` speaks of -/

/-- The part of the state that `RegsOk` speaks of, with the rest at its reset value. -/
def State.registers (s : State) : State :=
  { State.reset with
    par := s.par
    trtt := s.trtt
    trttSaved := s.trttSaved
    mocsSaved := s.mocsSaved
    l3Saved := s.l3Saved
    l3Control := s.l3Control
    gamt := s.gamt
    fences := s.fences
    mchbar := s.mchbar
    pci := s.pci
    palette := s.palette }

theorem regsOk_registers (s : State) : RegsOk s.registers ↔ RegsOk s :=
  ⟨fun ⟨h1, h2, h3, h4, h5, h6, h7, h8, h9, h10, h11, h12, h13, h14⟩ =>
      ⟨h1, h2, h3, h4, h5, h6, h7, h8, h9, h10, h11, h12, h13, h14⟩,
    fun ⟨h1, h2, h3, h4, h5, h6, h7, h8, h9, h10, h11, h12, h13, h14⟩ =>
      ⟨h1, h2, h3, h4, h5, h6, h7, h8, h9, h10, h11, h12, h13, h14⟩⟩

theorem RegsOk.congr {s t : State} (h : RegsOk s) (k : t.registers = s.registers) : RegsOk t :=
  (regsOk_registers t).1 (k ▸ (regsOk_registers s).2 h)

theorem Keeps.registers {s t : State} (h : Keeps s t) : t.registers = s.registers :=
  by
  have k := congrArg State.registers h.core
  exact k

/-! ### The reset values -/

theorem l3Default_lt (i : Nat) : (l3Default i).toNat < 64 := by
  unfold l3Default
  split <;> decide

theorem gamtDefault_lt (i : Nat) : (gamtDefault i).toNat < 2 ^ 17 := by
  unfold gamtDefault
  split <;> decide

theorem l3Reset_fields : ∀ x ∈ l3Reset, x.toNat < 64 := List.forall_mem_map.2 (fun i _ => l3Default_lt i)

theorem gamtReset_fields : ∀ x ∈ gamtReset, x.toNat < 2 ^ 17 :=
  List.forall_mem_map.2 (fun k _ => gamtDefault_lt (k % 64))

theorem length_l3Reset : l3Reset.length = 64 := by simp [l3Reset]

theorem length_gamtReset : gamtReset.length = 512 := by simp [gamtReset]

theorem TrttRegs.reset_ok : TrttRegs.reset.ok := by
  unfold TrttRegs.ok
  decide +kernel

theorem reset_gamt : State.reset.gamt = gamtReset := by simp only [State.reset]

theorem regsOk_reset : RegsOk State.reset where
  l3Size := length_l3Reset
  l3Fields := l3Reset_fields
  gamtSize := reset_gamt ▸ length_gamtReset
  gamtFields := reset_gamt ▸ gamtReset_fields
  fenceCount := List.length_replicate
  paletteSize := List.length_replicate
  trttFields := TrttRegs.reset_ok
  savedFields := List.forall_mem_nil _
  pasidFields := rfl
  atsFields := rfl
  mocsFields := List.forall_mem_nil _
  l3SavedFields := List.forall_mem_nil _
  mchbarForm := rfl
  params := by decide +kernel

/-! ### One rule per register file -/

/-- Replacing entries of a table by entries that meet a condition. -/
theorem forall_mem_set {α : Type} {l : List α} {P : α → Prop} (h : ∀ x ∈ l, P x) (i : Nat) {v : α} (hv : P v) :
    ∀ x ∈ l.set i v, P x := fun x hx => (List.mem_or_eq_of_mem_set hx).elim (h x) (fun e => e ▸ hv)

theorem RegsOk.l3At {s : State} (h : RegsOk s) (i : Nat) : (s.l3Control.getD i 0).toNat < 64 := by
  rw [List.getD_eq_getElem?_getD]
  cases hi : s.l3Control[i]? with
  | none => decide
  | some x => exact h.l3Fields x (List.mem_of_getElem? hi)

theorem RegsOk.gamtAt {s : State} (h : RegsOk s) (i : Nat) : (s.gamt.getD i 0).toNat < 2 ^ 17 := by
  rw [List.getD_eq_getElem?_getD]
  cases hi : s.gamt[i]? with
  | none => decide
  | some x => exact h.gamtFields x (List.mem_of_getElem? hi)

/-- Two L3 control entries after a masked write of their DWord: no bit above 5 in either half (R80). -/
theorem l3Pair_fields {lo hi : BitVec 16} (hlo : lo.toNat < 64) (hhi : hi.toNat < 64) (m v : DWord) :
    let w := merge (m &&& 0x003F003F) (BitVec.ofNat 32 (hi.toNat * 65536 + lo.toNat)) v
    (BitVec.ofNat 16 w.toNat).toNat < 64 ∧ (BitVec.ofNat 16 (w.toNat / 65536)).toNat < 64 := by
  intro w
  have mask (a : Nat) (ha : ((0x003F003F : DWord).toNat >>> a) % 2 ^ 16 < 2 ^ 6) :
      ((m &&& 0x003F003F).toNat >>> a) % 2 ^ 16 < 2 ^ 6 := by
    rw [BitVec.toNat_and, Nat.shiftRight_and_distrib, Nat.and_mod_two_pow]
    exact Nat.and_lt_two_pow _ ha
  have old : (BitVec.ofNat 32 (hi.toNat * 65536 + lo.toNat)).toNat = hi.toNat * 65536 + lo.toNat := by
    rw [BitVec.toNat_ofNat]
    omega
  have low : (w.toNat >>> 0) % 2 ^ 16 < 2 ^ 6 := merge_field_lt (by rw [old]; omega) (mask 0 (by decide))
  have high : (w.toNat >>> 16) % 2 ^ 16 < 2 ^ 6 :=
    merge_field_lt (by rw [old, Nat.shiftRight_eq_div_pow]; omega) (mask 16 (by decide))
  rw [Nat.shiftRight_eq_div_pow] at low high
  rw [BitVec.toNat_ofNat, BitVec.toNat_ofNat]
  omega

/-- A write of two L3 control entries (R80). -/
theorem RegsOk.writeL3Pair {s : State} (h : RegsOk s) (i : Nat) (m v : DWord) :
    let w := merge (m &&& 0x003F003F)
      (BitVec.ofNat 32 ((s.l3Control.getD (2 * i + 1) 0).toNat * 65536 + (s.l3Control.getD (2 * i) 0).toNat)) v
    RegsOk { s with l3Control := (s.l3Control.set (2 * i) (BitVec.ofNat 16 w.toNat)).set (2 * i + 1)
                                  (BitVec.ofNat 16 (w.toNat / 65536)) } :=
  have ⟨low, high⟩ := l3Pair_fields (h.l3At (2 * i)) (h.l3At (2 * i + 1)) m v
  { h with
    l3Size := by simp [h.l3Size]
    l3Fields := forall_mem_set (forall_mem_set h.l3Fields _ low) _ high }

/-- A write of a memory interface control register (R82). -/
theorem RegsOk.writeGamt {s : State} (h : RegsOk s) (i : Nat) (m v : DWord) :
    RegsOk { s with gamt := s.gamt.set i (merge (m &&& 0x1FFFF) (s.gamt.getD i 0) v) } :=
  { h with
    gamtSize := by simp [h.gamtSize]
    gamtFields := forall_mem_set h.gamtFields _ (merge_lt (h.gamtAt i) (by decide)) }

theorem halfOf_toNat (q : QWord) (i : Nat) : (halfOf q i).toNat = q.toNat / 2 ^ (32 * i) % 2 ^ 32 := by
  rw [halfOf, BitVec.toNat_ofNat, Nat.shiftRight_eq_div_pow]

/-- The live TR-TT registers. -/
theorem RegsOk.setTrtt {s : State} (h : RegsOk s) {r : TrttRegs} (hr : r.ok) : RegsOk { s with trtt := r } :=
  { h with trttFields := hr }

/-- A write of the low half of the L3 pointer: bits 15:0 are reserved (R491). -/
theorem TrttRegs.ok_writeLow {r : TrttRegs} (h : r.ok) (m v : DWord) :
    TrttRegs.ok { r with l3ptr := setHalf r.l3ptr 0 (merge (m &&& 0xFFFF0000) (halfOf r.l3ptr 0) v) } := by
  obtain ⟨hlow, hhigh, hva, hte⟩ := h
  have field : ((merge (m &&& 0xFFFF0000) (halfOf r.l3ptr 0) v).toNat >>> 0) % 2 ^ 16 < 2 ^ 0 := by
    refine merge_field_lt ?_ ?_
    · rw [halfOf_toNat]
      simp [Nat.shiftRight_eq_div_pow]
      omega
    · rw [BitVec.toNat_and, Nat.shiftRight_and_distrib, Nat.and_mod_two_pow]
      exact Nat.and_lt_two_pow _ (by decide)
  have old := halfOf_toNat r.l3ptr 1
  generalize merge (m &&& 0xFFFF0000) (halfOf r.l3ptr 0) v = w at field ⊢
  have hw := w.isLt
  simp only [Nat.shiftRight_zero, Nat.pow_zero] at field
  refine ⟨?_, ?_, hva, hte⟩ <;> simp only [setHalf, if_true, BitVec.toNat_ofNat, old] <;> omega

/-- A write of the high half: bits 63:48 are reserved. -/
theorem TrttRegs.ok_writeHigh {r : TrttRegs} (h : r.ok) (m v : DWord) :
    TrttRegs.ok { r with l3ptr := setHalf r.l3ptr 1 (merge (m &&& 0x0000FFFF) (halfOf r.l3ptr 1) v) } := by
  obtain ⟨hlow, hhigh, hva, hte⟩ := h
  have field : (merge (m &&& 0x0000FFFF) (halfOf r.l3ptr 1) v).toNat < 2 ^ 16 := by
    refine merge_lt ?_ (by decide)
    rw [halfOf_toNat]
    omega
  have old := halfOf_toNat r.l3ptr 0
  generalize merge (m &&& 0x0000FFFF) (halfOf r.l3ptr 1) v = w at field ⊢
  refine ⟨?_, ?_, hva, hte⟩ <;> simp only [setHalf, Nat.one_ne_zero, if_false, BitVec.toNat_ofNat, old] <;> omega

/-- The PCI capability registers, with the reserved bits of two of them clear (R153, R157). -/
theorem RegsOk.setPci {s : State} (h : RegsOk s) {p : PciCaps} (hp : p.pasidControl &&& 0xFFF8 = 0)
    (ha : p.atsControl &&& 0x7FE0 = 0) : RegsOk { s with pci := p } :=
  { h with pasidFields := hp, atsFields := ha }

/-- Parameters in their sets. -/
theorem RegsOk.setPar {s : State} (h : RegsOk s) {p : Params} (hp : p.ok = true) : RegsOk { s with par := p } :=
  { h with params := hp }

theorem RegsOk.setFences {s : State} (h : RegsOk s) {fs : List Fence} (hf : fs.length = 16) :
    RegsOk { s with fences := fs } := { h with fenceCount := hf }

theorem RegsOk.setPalette {s : State} (h : RegsOk s) {p : List DWord} (hp : p.length = 256) :
    RegsOk { s with palette := p } := { h with paletteSize := hp }

theorem RegsOk.setMchbar {s : State} (h : RegsOk s) {m : List Host.Cell} (hm : Memory.wf m = true) :
    RegsOk { s with mchbar := m } := { h with mchbarForm := hm }

/-- The base of a BAR as programmed is naturally aligned (R40, R41). -/
theorem Params.ok_setBars {p : Params} (h : p.ok = true) (a b : Nat) :
    Params.ok { p with
      gmadrBase := a / p.gmadrSize * p.gmadrSize
      gttmmadrBase := b / 0x1000000 * 0x1000000 } = true := by
  simp only [Params.ok, Bool.and_eq_true, beq_iff_eq, Nat.mul_mod_left] at h ⊢
  tauto

end Sys2Proof.Machine
end

section
/-! SUPPORT. `PASID_State` and the resident contexts: what a count is after one has been set, and how the number of
resident contexts changes with one engine. -/
namespace Sys2Proof.Machine

/-! ### Counts -/

theorem pasidCount_of_not_mem {m : List (BitVec 20 × Nat)} {p : BitVec 20} (h : p ∉ m.map Prod.fst) :
    pasidCount m p = 0 := by
  induction m with
  | nil => rfl
  | cons x m ih =>
    simp only [List.map_cons, List.mem_cons, not_or] at h
    rw [pasidCount, if_neg (Ne.symm h.1), ih h.2]

/-- Setting a count changes that count alone; with a count of 0 the PASID must not be listed twice. -/
theorem pasidCount_setPasidCount {m : List (BitVec 20 × Nat)} {n : Nat} (h : n = 0 → (m.map Prod.fst).Nodup)
    (p q : BitVec 20) : pasidCount (setPasidCount m p n) q = if p = q then n else pasidCount m q := by
  induction m with
  | nil =>
    simp only [setPasidCount]
    split <;> simp_all [pasidCount]
  | cons x m ih =>
    obtain ⟨k, c⟩ := x
    have ih := ih (fun hn => (List.nodup_cons.1 (h hn)).2)
    simp only [setPasidCount]
    by_cases hk : k = p
    · subst hk
      rw [if_pos rfl]
      by_cases hn : n = 0
      · have hm := pasidCount_of_not_mem (List.nodup_cons.1 (h hn)).1
        rw [if_pos hn, pasidCount]
        split
        · rename_i hq
          rw [← hq, hm, hn]
        · rfl
      · rw [if_neg hn, pasidCount, pasidCount]
        split <;> rfl
    · rw [if_neg hk, pasidCount, pasidCount, ih]
      by_cases hq : k = q
      · rw [if_pos hq, if_pos hq, if_neg (fun e => hk (hq.trans e.symm))]
      · rw [if_neg hq, if_neg hq]

theorem mem_setPasidCount {m : List (BitVec 20 × Nat)} {p q : BitVec 20} {n : Nat}
    (h : q ∈ (setPasidCount m p n).map Prod.fst) : q = p ∨ q ∈ m.map Prod.fst := by
  induction m with
  | nil =>
    simp only [setPasidCount] at h
    split at h <;> simp_all
  | cons x m ih =>
    obtain ⟨k, c⟩ := x
    simp only [setPasidCount] at h
    split at h
    · split at h <;> simp_all
    · simp only [List.map_cons, List.mem_cons] at h ⊢
      tauto

theorem nodup_setPasidCount {m : List (BitVec 20 × Nat)} (h : (m.map Prod.fst).Nodup) (p : BitVec 20) (n : Nat) :
    ((setPasidCount m p n).map Prod.fst).Nodup := by
  induction m with
  | nil =>
    simp only [setPasidCount]
    split <;> simp
  | cons x m ih =>
    obtain ⟨k, c⟩ := x
    obtain ⟨hk, hm⟩ := List.nodup_cons.1 h
    simp only [setPasidCount]
    by_cases hp : k = p
    · rw [if_pos hp]
      split
      · exact hm
      · exact hp ▸ h
    · rw [if_neg hp]
      exact List.nodup_cons.2 ⟨fun hx => (mem_setPasidCount hx).elim hp hk, ih hm⟩

/-! ### Contexts that come and go -/

/-- One more or one less of a context's PASID, if it is advanced. -/
def Ctx.counted (c : Ctx) (p : BitVec 20) : Nat := b2n (c.advanced && c.pasid == p)

theorem inPasid_of_ctx {x : EngineState} {c : Ctx} (h : x.ctx = some c) (p : BitVec 20) :
    b2n (x.inPasid p) = c.counted p := by
  simp only [EngineState.inPasid, h]
  rfl

theorem inPasid_of_none {x : EngineState} (h : x.ctx = none) (p : BitVec 20) : b2n (x.inPasid p) = 0 := by
  simp only [EngineState.inPasid, h]
  rfl

/-- Whether an engine runs in a PASID depends on the identity of its context alone. -/
theorem inPasid_of_ident {x y : EngineState} (h : x.ctx.map Ctx.ident = y.ctx.map Ctx.ident) (p : BitVec 20) :
    x.inPasid p = y.inPasid p := by
  unfold EngineState.inPasid
  cases hx : x.ctx <;> cases hy : y.ctx <;> simp_all [Ctx.ident]

/-- Entering adds one to the count of the PASID (R118). -/
theorem pasidCount_enterPasid (s : State) (c : Ctx) (p : BitVec 20) :
    pasidCount (enterPasid s c).pasidState p = pasidCount s.pasidState p + c.counted p := by
  unfold enterPasid Ctx.counted
  cases c.advanced
  · rfl
  · rw [if_pos rfl]
    show pasidCount (setPasidCount _ _ _) p = _
    rw [pasidCount_setPasidCount (fun h => absurd h (by omega))]
    by_cases hp : c.pasid = p <;> simp [hp, b2n]

/-- Leaving takes one from it (R118, R1388). -/
theorem pasidCount_leavePasid {s : State} (h : (s.pasidState.map Prod.fst).Nodup) (c : Ctx) (p : BitVec 20) :
    pasidCount (leavePasid s c).pasidState p = pasidCount s.pasidState p - c.counted p := by
  unfold leavePasid Ctx.counted
  cases c.advanced
  · rfl
  · rw [if_pos rfl]
    show pasidCount (setPasidCount _ _ _) p = _
    rw [pasidCount_setPasidCount (fun _ => h)]
    by_cases hp : c.pasid = p <;> simp [hp, b2n]

theorem nodup_enterPasid {s : State} (h : (s.pasidState.map Prod.fst).Nodup) (c : Ctx) :
    ((enterPasid s c).pasidState.map Prod.fst).Nodup := by
  unfold enterPasid
  split
  · exact nodup_setPasidCount h _ _
  · exact h

theorem nodup_leavePasid {s : State} (h : (s.pasidState.map Prod.fst).Nodup) (c : Ctx) :
    ((leavePasid s c).pasidState.map Prod.fst).Nodup := by
  unfold leavePasid
  split
  · exact nodup_setPasidCount h _ _
  · exact h

/-- When one engine changes, the number of resident contexts changes by what that engine has. -/
theorem residents_change {s t : State} {e : Engine} (h : ∀ f, f ≠ e → t.eng f = s.eng f) (p : BitVec 20) :
    residents t p + b2n ((s.eng e).inPasid p) = residents s p + b2n ((t.eng e).inPasid p) := by
  unfold residents
  cases e <;> simp only [h, ne_eq, reduceCtorEq, not_false_eq_true] <;> omega

end Sys2Proof.Machine
end

section
/-! SUPPORT. What every action of an agent keeps: the three invariants (canonical memory, the register files, the count
of resident contexts), one lemma per function, down to `step`. An operation or an access keeps them by `Keeps`. -/
namespace Sys2Proof.Machine

/-- Going from `s` to `t` keeps the three invariants. -/
structure KeepsInvariants (s t : State) : Prop where
  mem : Inv s → Inv t
  registers : RegsOk s → RegsOk t
  pasid : PasidOk s → PasidOk t

theorem KeepsInvariants.refl (s : State) : KeepsInvariants s s := ⟨id, id, id⟩

theorem KeepsInvariants.trans {s t u : State} (h : KeepsInvariants s t) (k : KeepsInvariants t u) :
    KeepsInvariants s u := ⟨k.mem ∘ h.mem, k.registers ∘ h.registers, k.pasid ∘ h.pasid⟩

/-- `PasidOk` speaks of `PASID_State`, of the identities of the resident contexts, and of which engines are in a
delivery. -/
theorem PasidOk.congr {s t : State} (h : PasidOk s) (hp : t.pasidState = s.pasidState)
    (hc : ∀ e, (t.eng e).ctx.map Ctx.ident = (s.eng e).ctx.map Ctx.ident)
    (hr : ∀ e, (t.eng e).run = .switching → (s.eng e).run = .switching) : PasidOk t where
  listedOnce := hp ▸ h.listedOnce
  counts p := by
    rw [hp, h.counts p]
    simp only [residents, inPasid_of_ident (hc _)]
  emptyInDelivery e he := by
    have k := hc e
    rw [h.emptyInDelivery e (hr e he)] at k
    simpa using k

theorem Keeps.invariants {s t : State} (h : Keeps s t) : KeepsInvariants s t where
  mem := h.mem
  registers k := k.congr h.registers
  pasid k := k.congr h.pasidState (fun e => (h.eng e).ctx) (fun e => (h.eng e).run)

/-- An update that leaves memory, `PASID_State` and the engines alone. -/
theorem KeepsInvariants.of_registers {s t : State} (hm : t.mem = s.mem) (hp : t.pasidState = s.pasidState)
    (he : t.engines = s.engines) (hr : RegsOk s → RegsOk t) : KeepsInvariants s t where
  mem h := (congrArg (fun m => Memory.wf m = true) hm).mpr h
  registers := hr
  pasid h := h.congr hp (fun e => by rw [State.eng, State.eng, he]) (fun e => by rw [State.eng, State.eng, he]; exact id)

/-- From `s` to `t` nothing changes that an invariant speaks of. -/
structure SameParts (s t : State) : Prop where
  mem : t.mem = s.mem
  pasidState : t.pasidState = s.pasidState
  engines : t.engines = s.engines
  registers : t.registers = s.registers

theorem SameParts.refl (s : State) : SameParts s s := ⟨rfl, rfl, rfl, rfl⟩

theorem SameParts.trans {s t u : State} (h : SameParts s t) (k : SameParts t u) : SameParts s u :=
  ⟨k.mem.trans h.mem, k.pasidState.trans h.pasidState, k.engines.trans h.engines, k.registers.trans h.registers⟩

/-- An update that is made under a condition. -/
theorem SameParts.sometimes {s t u : State} {p : Prop} {_ : Decidable p} (k : SameParts t u) (h : SameParts s t) :
    SameParts s (if p then u else t) := by
  split
  · exact h.trans k
  · exact h

theorem SameParts.unless {s t u : State} {p : Prop} {_ : Decidable p} (k : SameParts t u) (h : SameParts s t) :
    SameParts s (if p then t else u) := by
  split
  · exact h
  · exact h.trans k

theorem SameParts.invariants {s t : State} (h : SameParts s t) : KeepsInvariants s t :=
  .of_registers h.mem h.pasidState h.engines (fun k => k.congr h.registers)

theorem post_same (s : State) (d : EventDest) (v : Event) : SameParts s (s.post d v) := by
  cases d <;> exact ⟨rfl, rfl, rfl, rfl⟩

/-- An update of one engine that leaves its context alone and starts no delivery. -/
theorem setEng_invariants {s : State} {e : Engine} {x : EngineState}
    (hc : x.ctx.map Ctx.ident = (s.eng e).ctx.map Ctx.ident) (hr : x.run = .switching → (s.eng e).run = .switching) :
    KeepsInvariants s (s.setEng e x) where
  mem := id
  registers h := h.congr rfl
  pasid h := h.congr rfl
    (fun f => by
      rw [State.eng_setEng]
      split
      · rename_i hf
        exact hf ▸ hc
      · rfl)
    (fun f => by
      rw [State.eng_setEng]
      split
      · rename_i hf
        exact hf ▸ hr
      · exact id)

/-- A chain of updates, one per element of a list. -/
theorem foldl_invariants {α : Type} {f : State → α → State} (h : ∀ s a, KeepsInvariants s (f s a)) (l : List α)
    (s : State) : KeepsInvariants s (l.foldl f s) := by
  induction l generalizing s with
  | nil => exact .refl s
  | cons a l ih => exact (h s a).trans (ih _)

/-! ### Outcomes -/

theorem outcome_eq_next {r : Except Refusal State} {t : State} : outcome r = .next t ↔ r = .ok t := by
  cases r <;> simp [outcome]

theorem andThen_eq_next {r : Host.Outcome State Fault Refusal} {f : State → Host.Outcome State Fault Refusal}
    {t : State} : andThen r f = .next t ↔ ∃ u, r = .next u ∧ f u = .next t := by
  cases r <;> simp [andThen]

/-! ### A context leaves its engine -/

/-- From `s` to `t` the engine `e` loses its context, with its count; the other engines stay as they are. -/
structure Vacates (s t : State) (e : Engine) : Prop where
  pasidState : t.pasidState = (dropContext s e).pasidState
  ctx : (t.eng e).ctx = none
  others : ∀ f, f ≠ e → t.eng f = s.eng f

theorem dropContext_none {s : State} {e : Engine} (h : (s.eng e).ctx = none) : dropContext s e = s := by
  simp [dropContext, h]

theorem dropContext_pasidState {s : State} {e : Engine} {c : Ctx} (h : (s.eng e).ctx = some c) :
    (dropContext s e).pasidState = (leavePasid s c).pasidState := by
  simp [dropContext, h]

/-- With the context its count goes: every count is still that of the contexts that remain (R118, R1388). -/
theorem Vacates.pasidOk {s t : State} {e : Engine} (v : Vacates s t e) (h : PasidOk s) : PasidOk t where
  listedOnce := by
    rw [v.pasidState]
    cases hc : (s.eng e).ctx with
    | none =>
      rw [dropContext_none hc]
      exact h.listedOnce
    | some c =>
      rw [dropContext_pasidState hc]
      exact nodup_leavePasid h.listedOnce c
  counts p := by
    have change := residents_change v.others p
    have count := h.counts p
    rw [inPasid_of_none v.ctx] at change
    rw [v.pasidState]
    cases hc : (s.eng e).ctx with
    | none =>
      rw [inPasid_of_none hc] at change
      rw [dropContext_none hc]
      omega
    | some c =>
      rw [inPasid_of_ctx hc] at change
      rw [dropContext_pasidState hc, pasidCount_leavePasid h.listedOnce]
      omega
  emptyInDelivery f hf := by
    by_cases hfe : f = e
    · exact hfe ▸ v.ctx
    · rw [v.others f hfe] at hf ⊢
      exact h.emptyInDelivery f hf

/-- The TR-TT registers that come back with a context are the reset values or were saved with it (R497). -/
theorem savedTrtt_mem (m : List (BitVec 32 × TrttRegs)) (k : BitVec 32) :
    savedTrtt m k = .reset ∨ (k, savedTrtt m k) ∈ m := by
  induction m with
  | nil => exact .inl rfl
  | cons x m ih =>
    obtain ⟨i, r⟩ := x
    rw [savedTrtt]
    split
    · rename_i hi
      exact .inr (hi ▸ List.mem_cons_self)
    · exact ih.imp_right (List.mem_cons_of_mem _)

theorem mem_saveTrtt {m : List (BitVec 32 × TrttRegs)} {k : BitVec 32} {r : TrttRegs} {x : BitVec 32 × TrttRegs}
    (h : x ∈ saveTrtt m k r) : x = (k, r) ∨ x ∈ m := by
  induction m with
  | nil => exact .inl (List.mem_singleton.1 h)
  | cons y m ih =>
    rw [saveTrtt] at h
    split at h <;> simp only [List.mem_cons] at h ⊢ <;> tauto

theorem savedMocs_mem {m : List ((Engine × BitVec 32) × List DWord)} {e : Engine} {k : BitVec 32} {l : List DWord}
    (h : savedMocs m e k = some l) : ((e, k), l) ∈ m := by
  induction m with
  | nil => cases h
  | cons x m ih =>
    obtain ⟨i, r⟩ := x
    rw [savedMocs] at h
    split at h
    · rename_i hi
      exact Option.some.inj h ▸ hi ▸ List.mem_cons_self
    · exact List.mem_cons_of_mem _ (ih h)

theorem mem_saveMocs {m : List ((Engine × BitVec 32) × List DWord)} {e : Engine} {k : BitVec 32} {l : List DWord}
    {x : (Engine × BitVec 32) × List DWord} (h : x ∈ saveMocs m e k l) : x = ((e, k), l) ∨ x ∈ m := by
  induction m with
  | nil => exact .inl (List.mem_singleton.1 h)
  | cons y m ih =>
    rw [saveMocs] at h
    split at h <;> simp only [List.mem_cons] at h ⊢ <;> tauto

theorem savedL3_mem {m : List (BitVec 32 × List (BitVec 16))} {k : BitVec 32} {l : List (BitVec 16)}
    (h : savedL3 m k = some l) : (k, l) ∈ m := by
  induction m with
  | nil => cases h
  | cons x m ih =>
    obtain ⟨i, r⟩ := x
    rw [savedL3] at h
    split at h
    · rename_i hi
      exact Option.some.inj h ▸ hi ▸ List.mem_cons_self
    · exact List.mem_cons_of_mem _ (ih h)

theorem mem_saveL3 {m : List (BitVec 32 × List (BitVec 16))} {k : BitVec 32} {l : List (BitVec 16)}
    {x : BitVec 32 × List (BitVec 16)} (h : x ∈ saveL3 m k l) : x = (k, l) ∨ x ∈ m := by
  induction m with
  | nil => exact .inl (List.mem_singleton.1 h)
  | cons y m ih =>
    rw [saveL3] at h
    split at h <;> simp only [List.mem_cons] at h ⊢ <;> tauto

/-- An engine's memory interface control table is 64 entries of the register file (R82). -/
theorem RegsOk.mocsOf {s : State} (h : RegsOk s) (e : Engine) :
    (mocsOf s e).length = 64 ∧ ∀ v ∈ mocsOf s e, v.toNat < 2 ^ 17 := by
  refine ⟨?_, fun v hv => h.gamtFields v (List.mem_of_mem_drop (List.mem_of_mem_take hv))⟩
  have := (s.par.mocsTable.get e).isLt
  simp only [Machine.mocsOf, List.length_take, List.length_drop, h.gamtSize]
  omega

/-- Saving a context's registers (R252, R497). -/
theorem RegsOk.saveRegisters {s : State} (h : RegsOk s) (e : Engine) (k : BitVec 32) : RegsOk (saveRegisters s e k) := by
  have mocs : ∀ x ∈ saveMocs s.mocsSaved e k (Machine.mocsOf s e), x.2.length = 64 ∧ ∀ v ∈ x.2, v.toNat < 2 ^ 17 :=
    fun x hx => (mem_saveMocs hx).elim (fun hx => hx ▸ h.mocsOf e) (h.mocsFields x)
  unfold Machine.saveRegisters
  dsimp only
  split
  · exact { h with
      mocsFields := mocs
      savedFields := fun x hx => (mem_saveTrtt hx).elim (fun hx => hx ▸ h.trttFields) (h.savedFields x)
      l3SavedFields := fun x hx => (mem_saveL3 hx).elim (fun hx => hx ▸ ⟨h.l3Size, h.l3Fields⟩) (h.l3SavedFields x) }
  · exact { h with mocsFields := mocs }

theorem sendLastRequest_same (s : State) (e : Option Engine) (p : BitVec 20) (k : BitVec 32) (b : Bool) :
    SameParts s (sendLastRequest s e p k b) := ⟨rfl, rfl, rfl, rfl⟩

theorem rememberBad_same (s : State) (k : BitVec 32) : SameParts s (rememberBad s k) := ⟨rfl, rfl, rfl, rfl⟩

theorem rememberFailed_same (s : State) (k : BitVec 32) : SameParts s (rememberFailed s k) := ⟨rfl, rfl, rfl, rfl⟩

theorem noteAway_same (s : State) (e : Engine) (c : Ctx) : SameParts s (noteAway s e c) :=
  .sometimes ⟨rfl, rfl, rfl, rfl⟩ (.refl s)

/-- Leaving and entering a PASID change nothing but `PASID_State`. -/
theorem leavePasid_eq (s : State) (c : Ctx) : leavePasid s c = { s with pasidState := (leavePasid s c).pasidState } := by
  unfold leavePasid
  split <;> rfl

theorem enterPasid_eq (s : State) (c : Ctx) : enterPasid s c = { s with pasidState := (enterPasid s c).pasidState } := by
  unfold enterPasid
  split <;> rfl

/-- Saving registers changes nothing but what is saved. -/
theorem saveRegisters_eq (s : State) (e : Engine) (k : BitVec 32) :
    saveRegisters s e k = { s with
      mocsSaved := (saveRegisters s e k).mocsSaved
      trttSaved := (saveRegisters s e k).trttSaved
      l3Saved := (saveRegisters s e k).l3Saved } := by
  unfold saveRegisters
  dsimp only
  split <;> rfl

/-- With no context nothing leaves. -/
theorem leaveEngine_none {s : State} {e : Engine} (h : (s.eng e).ctx = none) (b : Bool) : leaveEngine s e b = s := by
  simp [leaveEngine, h]

/-- A context leaves: its registers are saved, its count taken back, then nothing that an invariant speaks of changes
before the engine is emptied (R684). -/
theorem leaveEngine_some {s : State} {e : Engine} {c : Ctx} (h : (s.eng e).ctx = some c) (b : Bool) :
    ∃ u, SameParts (leavePasid (saveRegisters s e c.contextID) c) u ∧
      leaveEngine s e b = u.setEng e { u.eng e with ctx := none, streamFaultCount := 0, facts := [] } := by
  simp only [leaveEngine, h]
  refine ⟨_, ?_, rfl⟩
  exact .unless (noteAway_same _ _ _)
    (.sometimes (rememberBad_same _ _) (.sometimes (sendLastRequest_same _ _ _ _ _) (.refl _)))

theorem leaveEngine_vacates (s : State) (e : Engine) (b : Bool) : Vacates s (leaveEngine s e b) e := by
  cases h : (s.eng e).ctx with
  | none =>
    rw [leaveEngine_none h]
    exact ⟨by rw [dropContext_none h], h, fun _ _ => rfl⟩
  | some c =>
    obtain ⟨u, hu, ht⟩ := leaveEngine_some h b
    have engines : u.engines = s.engines := by
      rw [hu.engines, leavePasid_eq, saveRegisters_eq]
    rw [ht]
    refine ⟨?_, ?_, fun f hf => ?_⟩
    · rw [State.setEng_pasidState, hu.pasidState, dropContext_pasidState h]
      unfold leavePasid
      rw [saveRegisters_eq]
      split <;> rfl
    · rw [State.eng_setEng_same]
    · rw [State.eng_setEng, if_neg (Ne.symm hf), State.eng, engines, State.eng]

/-- The resident context leaves an engine. -/
theorem leaveEngine_invariants (s : State) (e : Engine) (b : Bool) : KeepsInvariants s (leaveEngine s e b) := by
  cases h : (s.eng e).ctx with
  | none =>
    rw [leaveEngine_none h]
    exact .refl s
  | some c =>
    obtain ⟨u, hu, ht⟩ := leaveEngine_some h b
    refine ⟨fun k => ?_, fun k => ?_, (leaveEngine_vacates s e b).pasidOk⟩
    · have mem : (leaveEngine s e b).mem = s.mem := by
        rw [ht, State.setEng_mem, hu.mem, leavePasid_eq, saveRegisters_eq]
      exact (congrArg (fun m => Memory.wf m = true) mem).mpr k
    · refine (k.saveRegisters e c.contextID).congr ?_
      rw [ht]
      refine Eq.trans ?_ (hu.registers.trans ?_)
      · rfl
      · rw [leavePasid_eq]
        rfl

end Sys2Proof.Machine
end

section
/-! SUPPORT. Messages about contexts, what waits, deliveries and register writes keep the three invariants. -/
namespace Sys2Proof.Machine

/-! ### Messages about contexts, and what waits -/

theorem wipeHdcOf_keeps (s : State) (e : Engine) : Keeps s (wipeHdcOf s e) := by
  unfold wipeHdcOf
  split
  · exact wipeHdc_keeps s
  · exact .refl s

/-- A delivery starts at an engine without a context. -/
theorem startDelivery_invariants {s : State} {e : Engine} (h : (s.eng e).ctx = none) :
    KeepsInvariants s (s.setRun e .switching) where
  mem := id
  registers k := k.congr rfl
  pasid k := by
    refine Vacates.pasidOk (e := e) ⟨by rw [dropContext_none h]; rfl, ?_, fun f hf => ?_⟩ k
    · rw [State.setRun, State.eng_setEng_same]
      exact h
    · rw [State.setRun, State.eng_setEng, if_neg (Ne.symm hf)]

theorem receiveReady_invariants (s : State) (e : Engine) : KeepsInvariants s (receiveReady s e) := by
  have empty : ((wipeHdcOf (leaveEngine s e false) e).eng e).ctx = none := by
    have k := ((wipeHdcOf_keeps (leaveEngine s e false) e).eng e).ctx
    rw [(leaveEngine_vacates s e false).ctx] at k
    simpa using k
  exact (((leaveEngine_invariants s e false).trans (wipeHdcOf_keeps _ e).invariants).trans
    (startDelivery_invariants empty)).trans (post_same _ _ _).invariants

theorem contextAvailable_invariants (s : State) (e : Engine) : KeepsInvariants s (contextAvailable s e) := by
  unfold contextAvailable
  dsimp only
  split
  · exact (enqueue_keeps _ _).invariants
  · split
    · exact receiveReady_invariants s e
    · exact receiveReady_invariants s e
    · exact (enqueue_keeps _ _).invariants
    · exact (enqueue_keeps _ _).invariants
    · exact (post_same _ _ _).invariants

theorem dropWaiting_same (s : State) (e : Engine) : SameParts s (dropWaiting s e) := ⟨rfl, rfl, rfl, rfl⟩

theorem leaveIdle_invariants (s : State) (e : Engine) : KeepsInvariants s (leaveIdle s e) :=
  ((leaveEngine_invariants s e false).trans (wipeHdcOf_keeps _ e).invariants).trans
    (setRun_keeps _ e (by simp)).invariants

theorem switchOut_invariants (s : State) (e : Engine) : KeepsInvariants s (switchOut s e) := by
  unfold switchOut
  dsimp only
  split
  · exact .refl s
  · have leave (p : Prop) [Decidable p] : KeepsInvariants s
        (if p then leaveIdle (dropWaiting s e) e else enqueue s (.plain (.switchOut e))) := by
      split
      · exact (dropWaiting_same s e).invariants.trans (leaveIdle_invariants _ e)
      · exact (enqueue_keeps _ _).invariants
    split
    · exact leave _
    · exact leave _
    · exact (enqueue_keeps _ _).invariants
    · exact (enqueue_keeps _ _).invariants
    · exact .refl s

/-- What has waited is done again, a request or a message. -/
theorem attempt_invariants {s t : State} {f : Option Nat} {w : Waiter} (h : attempt s f w = .ok t) :
    KeepsInvariants s t := by
  cases hw : w.req.isRequest with
  | true => exact (attempt_keeps hw h).invariants
  | false =>
    rw [attempt, keepsWaiting, hw] at h
    cases hr : w.req with
    | available e =>
      simp only [hr, Bool.false_and, Bool.false_eq_true, if_false, Except.ok.injEq] at h
      exact h ▸ contextAvailable_invariants s e
    | switchOut e =>
      simp only [hr, Bool.false_and, Bool.false_eq_true, if_false, Except.ok.injEq] at h
      exact h ▸ switchOut_invariants s e
    | access | hdc | walk | trtt | aux =>
      rw [hr] at hw
      cases hw

theorem drain_invariants {s t : State} (h : drain s = .ok t) : KeepsInvariants s t :=
  retryAll_induct (P := KeepsInvariants s) (s := { s with waiting := [] })
    (fun _ _ _ hs ha => hs.trans (attempt_invariants ha)) (SameParts.invariants ⟨rfl, rfl, rfl, rfl⟩) h

theorem settle_invariants {s t : State} (h : settle s = .next t) : KeepsInvariants s t := by
  unfold settle at h
  split at h
  · exact drain_invariants (outcome_eq_next.1 h)
  · injection h with h
    exact h ▸ .refl s

/-! ### Delivery -/

theorem savedRegisters_trtt {s : State} (h : RegsOk s) (k : BitVec 32) : (savedTrtt s.trttSaved k).ok :=
  (savedTrtt_mem s.trttSaved k).elim (fun e => e ▸ TrttRegs.reset_ok) (fun m => h.savedFields _ m)

/-- A table of 64 entries put back leaves the register file at its size. -/
theorem RegsOk.setMocs {s : State} (h : RegsOk s) (e : Engine) {l : List DWord} (hl : l.length = 64)
    (hf : ∀ v ∈ l, v.toNat < 2 ^ 17) : RegsOk (setMocs s e l) := by
  have := (s.par.mocsTable.get e).isLt
  refine { h with gamtSize := ?_, gamtFields := fun v hv => ?_ }
  · simp only [Machine.setMocs, List.length_append, List.length_take, List.length_drop, h.gamtSize]
    omega
  · simp only [Machine.setMocs, List.mem_append] at hv
    rcases hv with (hv | hv) | hv
    · exact h.gamtFields v (List.mem_of_mem_take hv)
    · exact hf v hv
    · exact h.gamtFields v (List.mem_of_mem_drop hv)

/-- The memory interface control registers once a context's table is back. -/
def restoredGamt (s : State) (e : Engine) (k : BitVec 32) : List DWord :=
  match savedMocs s.mocsSaved e k with
  | some l => (setMocs s e l).gamt
  | none => s.gamt

theorem restoreL3_eq (s : State) (k : BitVec 32) :
    restoreL3 s k = { s with l3Control := (savedL3 s.l3Saved k).getD s.l3Control } := by
  unfold restoreL3
  cases savedL3 s.l3Saved k <;> rfl

/-- Restoring changes nothing but the restored registers. -/
theorem restoreRegisters_eq (s : State) (e : Engine) (k : BitVec 32) :
    restoreRegisters s e k = { s with
      gamt := restoredGamt s e k
      trtt := if e = .render then savedTrtt s.trttSaved k else s.trtt
      l3Control := if e = .render then (savedL3 s.l3Saved k).getD s.l3Control else s.l3Control } := by
  unfold restoreRegisters restoredGamt
  simp only [restoreL3_eq]
  by_cases he : e = .render
  · simp only [he, if_true]
    cases savedMocs s.mocsSaved .render k <;> rfl
  · simp only [he, if_false]
    cases savedMocs s.mocsSaved e k <;> rfl

theorem RegsOk.restoredGamt {s : State} (h : RegsOk s) (e : Engine) (k : BitVec 32) :
    RegsOk { s with gamt := restoredGamt s e k } := by
  unfold Machine.restoredGamt
  split
  · rename_i hl
    obtain ⟨size, fields⟩ := h.mocsFields _ (savedMocs_mem hl)
    exact h.setMocs e size fields
  · exact h

theorem RegsOk.restoredL3 {s : State} (h : RegsOk s) (k : BitVec 32) :
    RegsOk { s with l3Control := (savedL3 s.l3Saved k).getD s.l3Control } := by
  cases hl : savedL3 s.l3Saved k with
  | none => exact h
  | some l =>
    obtain ⟨size, fields⟩ := h.l3SavedFields _ (savedL3_mem hl)
    exact { h with l3Size := size, l3Fields := fields }

/-- The registers of a context come back (R252, R497). -/
theorem RegsOk.restoreRegisters {s : State} (h : RegsOk s) (e : Engine) (k : BitVec 32) :
    RegsOk (restoreRegisters s e k) := by
  have mocs := h.restoredGamt e k
  rw [restoreRegisters_eq]
  by_cases he : e = .render
  · simp only [he, if_true] at mocs ⊢
    exact (mocs.setTrtt (savedRegisters_trtt h k)).restoredL3 k
  · simp only [he, if_false]
    exact mocs

/-- The engine on which a context has been made resident. -/
def EngineState.received (x : EngineState) (c : Ctx) : EngineState :=
  { x with ctx := some c, run := .running, facts := [], streamFaultCount := 0 }

theorem EngineState.received_ctx (x : EngineState) (c : Ctx) : (x.received c).ctx = some c := rfl

/-- The machine with a context made resident, before what waited is done again (R680 (ii) to (v)). -/
def delivered (s : State) (e : Engine) (c : Ctx) : State :=
  { s with
    engines := s.engines.set e ((s.eng e).received { c with bad := s.badContexts.contains c.contextID })
    pasidState := (enterPasid s c).pasidState
    gamt := restoredGamt s e c.contextID
    trtt := if e = .render then savedTrtt s.trttSaved c.contextID else s.trtt
    l3Control := if e = .render then (savedL3 s.l3Saved c.contextID).getD s.l3Control else s.l3Control
    events := { s.events with
      driver := if c.valid then s.events.driver else s.events.driver ++ [.invalidDescriptor e]
      commandStreamers := s.events.commandStreamers ++ [.contextConfirmed e] } }

theorem makeResident_eq (s : State) (e : Engine) (c : Ctx) : makeResident s e c = drain (delivered s e c) := by
  unfold makeResident delivered
  simp only [restoreRegisters_eq]
  rw [enterPasid_eq s c]
  congr 1
  cases hv : c.valid <;> cases ha : c.advanced <;> simp only [enterPasid, ha] <;> rfl

theorem delivered_eng (s : State) (e f : Engine) (c : Ctx) : (delivered s e c).eng f =
    if e = f then (s.eng e).received { c with bad := s.badContexts.contains c.contextID } else s.eng f :=
  PerEngine.get_set _ _ _ _

theorem RegsOk.delivered {s : State} (h : RegsOk s) (e : Engine) (c : Ctx) : RegsOk (delivered s e c) := by
  refine (h.restoreRegisters e c.contextID).congr ?_
  rw [restoreRegisters_eq]
  rfl

/-- A delivery puts one context on an engine that has none, and counts it (R118, R680). -/
theorem PasidOk.delivered {s : State} {e : Engine} (h : PasidOk s) (he : (s.eng e).ctx = none) (c : Ctx) :
    PasidOk (delivered s e c) where
  listedOnce := nodup_enterPasid h.listedOnce c
  counts p := by
    have change := residents_change (s := s) (t := Machine.delivered s e c)
      (fun f hf => by rw [delivered_eng, if_neg (Ne.symm hf)]) p
    have count := h.counts p
    have here : b2n (((Machine.delivered s e c).eng e).inPasid p) = c.counted p := by
      rw [delivered_eng, if_pos rfl, inPasid_of_ctx (EngineState.received_ctx _ _)]
      rfl
    rw [inPasid_of_none he, here] at change
    show pasidCount (enterPasid s c).pasidState p = _
    rw [pasidCount_enterPasid]
    omega
  emptyInDelivery f hf := by
    rw [delivered_eng] at hf ⊢
    split at hf
    · cases hf
    · rename_i hfe
      rw [if_neg hfe]
      exact h.emptyInDelivery f hf

theorem contextLaunched_invariants {s t : State} {e : Engine} (h : contextLaunched s e = .ok t) :
    KeepsInvariants s t := by
  unfold contextLaunched at h
  dsimp only at h
  split at h
  · injection h with h
    exact h ▸ .refl s
  · rename_i hrun
    split at h
    · cases h
    · have deliver (c : Ctx) : KeepsInvariants s (delivered s e c) :=
        ⟨id, fun k => k.delivered e c, fun k => k.delivered (k.emptyInDelivery e (not_not.1 hrun)) c⟩
      rw [makeResident_eq] at h
      exact (deliver _).trans (drain_invariants h)

theorem csMessage_invariants {s t : State} {e : Engine} {v : DWord} (h : csMessage s e v = .ok t) :
    KeepsInvariants s t := by
  have available : KeepsInvariants s (if bit v 0 && bit v 16 then contextAvailable s e else s) := by
    split
    · exact contextAvailable_invariants s e
    · exact .refl s
  unfold csMessage at h
  dsimp only at h
  split at h
  · exact available.trans (contextLaunched_invariants h)
  · injection h with h
    exact h ▸ available

/-! ### Registers -/

/-- A descriptor register is part of its engine alone. -/
theorem setDesc_invariants (s : State) (e : Engine) (d : Descriptor) :
    KeepsInvariants s (s.setEng e { s.eng e with desc := d }) := setEng_invariants rfl id

theorem csDescriptorDword_invariants (s : State) (e f : Engine) (k : Nat) (v : DWord) :
    KeepsInvariants s (csDescriptorDword s e f k v) := by
  unfold csDescriptorDword
  dsimp only
  split
  · exact .refl s
  · exact setDesc_invariants s e _

theorem freeBytes_same (s : State) (n : Nat) : SameParts s (freeBytes s n).2 := by
  rw [freeBytes_state]
  exact ⟨rfl, rfl, rfl, rfl⟩

theorem freePat_same (s : State) (n : Nat) : SameParts s (freePat s n).2 := by
  induction n generalizing s with
  | zero => exact .refl s
  | succ n ih => exact ((freeBytes_same s 1).trans (freeBytes_same _ 1)).trans (ih _)

/-- Parameters that stay in their sets. -/
theorem setPar_invariants {s : State} {p : Params} (h : s.par.ok = true → p.ok = true) :
    KeepsInvariants s { s with par := p } :=
  .of_registers rfl rfl rfl (fun k => k.setPar (h k.params))

theorem patWritten_invariants (s : State) : KeepsInvariants s (patWritten s) := by
  unfold patWritten
  split
  · exact .refl s
  · exact (freePat_same s 8).invariants.trans (setPar_invariants (fun h => h))

/-- A write of a register. -/
theorem regWrite_invariants {s t : State} {r : MmioReg} {m v : DWord} (h : regWrite s r m v = .ok t) :
    KeepsInvariants s t := by
  have stored {x y : State} (k : SameParts x y) : KeepsInvariants x (patWritten y) :=
    k.invariants.trans (patWritten_invariants y)
  cases r with
  | message | descriptor | nullRange | nullCount =>
    injection h with h
    exact h ▸ .refl s
  | r404C | r4A30 | r4DFC | adNonWBReg =>
    injection h with h
    exact h ▸ SameParts.invariants ⟨rfl, rfl, rfl, rfl⟩
  | pat0 | pat1 | pat2 | pat3 =>
    injection h with h
    exact h ▸ stored ⟨rfl, rfl, rfl, rfl⟩
  | l3Pair i =>
    injection h with h
    exact h ▸ .of_registers rfl rfl rfl (fun k => k.writeL3Pair i m v)
  | gamtReg i =>
    injection h with h
    exact h ▸ .of_registers rfl rfl rfl (fun k => k.writeGamt i m v)
  | trL3Low =>
    injection h with h
    exact h ▸ .of_registers rfl rfl rfl (fun k => k.setTrtt (TrttRegs.ok_writeLow k.trttFields m v))
  | trL3High =>
    injection h with h
    exact h ▸ .of_registers rfl rfl rfl (fun k => k.setTrtt (TrttRegs.ok_writeHigh k.trttFields m v))
  | trNull | trInvalid =>
    injection h with h
    exact h ▸ .of_registers rfl rfl rfl (fun k => k.setTrtt k.trttFields)
  | trvadrReg =>
    injection h with h
    refine h ▸ .of_registers rfl rfl rfl (fun k => k.setTrtt ?_)
    obtain ⟨hlow, hhigh, hva, hte⟩ := k.trttFields
    exact ⟨hlow, hhigh, merge_lt (n := 8) hva (by decide), hte⟩
  | trtteReg =>
    injection h with h
    refine h ▸ .of_registers rfl rfl rfl (fun k => k.setTrtt ?_)
    obtain ⟨hlow, hhigh, hva, hte⟩ := k.trttFields
    exact ⟨hlow, hhigh, hva, merge_lt (n := 2) hte (by decide)⟩
  | mchbar | unlisted => cases h

theorem regWriteBytes_invariants {s t : State} {o : Nat} {d : List Byte} (h : regWriteBytes s o d = .ok t) :
    KeepsInvariants s t := by
  induction d generalizing s o with
  | nil =>
    injection h with h
    exact h ▸ .refl s
  | cons b bs ih =>
    unfold regWriteBytes at h
    split at h
    · rename_i h1
      exact (regWrite_invariants h1).trans (ih h)
    · cases h

theorem setMchbar_invariants (s : State) (a : Nat) (d : List Byte) :
    KeepsInvariants s { s with mchbar := Memory.writeBytes s.mchbar a d } :=
  .of_registers rfl rfl rfl (fun k => k.setMchbar (Memory.writeBytes_wf a d k.mchbarForm))

theorem mmioWriteBytes_invariants {s t : State} {o : Nat} {d : List Byte} (h : mmioWriteBytes s o d = .ok t) :
    KeepsInvariants s t := by
  unfold mmioWriteBytes at h
  split at h
  · split at h
    · injection h with h
      exact h ▸ (freeBytes_same s _).invariants.trans (setMchbar_invariants _ _ _)
    · cases h
  · exact regWriteBytes_invariants h

/-- A write of the Page Request registers leaves the other two capabilities alone. -/
theorem PciCaps.writePre_controls (p : PciCaps) (b : Bool) :
    (p.writePre b).pasidControl = p.pasidControl ∧ (p.writePre b).atsControl = p.atsControl := by
  unfold PciCaps.writePre
  split <;> exact ⟨rfl, rfl⟩

theorem setPci_invariants {s : State} {p : PciCaps}
    (hp : s.pci.pasidControl &&& 0xFFF8 = 0 → p.pasidControl &&& 0xFFF8 = 0)
    (ha : s.pci.atsControl &&& 0x7FE0 = 0 → p.atsControl &&& 0x7FE0 = 0) : KeepsInvariants s { s with pci := p } :=
  .of_registers rfl rfl rfl (fun k => k.setPci (hp k.pasidFields) (ha k.atsFields))

theorem cfgWriteDword_invariants (s : State) (o : Nat) (m v : DWord) : KeepsInvariants s (cfgWriteDword s o m v) := by
  unfold cfgWriteDword
  dsimp only
  split
  · exact setPci_invariants (fun k => upperHalf_merge_and k (by decide)) id
  split
  · exact setPci_invariants id (fun k => upperHalf_merge_and k (by decide))
  split
  · have control (b : Bool) : KeepsInvariants s { s with
        pci := (if b then s.pci.writePre (bit v 0) else s.pci).writeStatus ((m &&& v).toNat / 65536) } := by
      obtain ⟨pasid, ats⟩ := s.pci.writePre_controls (bit v 0)
      cases b
      · exact setPci_invariants id id
      · exact setPci_invariants (fun k => pasid.symm ▸ k) (fun k => ats.symm ▸ k)
    exact control (bit m 0)
  split
  · exact setPci_invariants id id
  · exact .refl s

theorem cfgWriteBytes_invariants {s t : State} {o : Nat} {d : List Byte} (h : cfgWriteBytes s o d = .ok t) :
    KeepsInvariants s t := by
  induction d generalizing s o with
  | nil =>
    injection h with h
    exact h ▸ .refl s
  | cons b bs ih =>
    unfold cfgWriteBytes at h
    split at h
    · exact (cfgWriteDword_invariants s _ _ _).trans (ih h)
    · cases h

/-- A command streamer's register write. -/
theorem csRegWrite_invariants {s t : State} {e : Engine} {o : Nat} {v : DWord} (h : csRegWrite s e o v = .ok t) :
    KeepsInvariants s t := by
  unfold csRegWrite at h
  split at h
  · exact csMessage_invariants h
  · split at h
    · injection h with h
      exact h ▸ .refl s
    · injection h with h
      exact h ▸ csDescriptorDword_invariants s e _ _ v
    · exact regWrite_invariants h

/-- A command streamer's register read gives data and no more. -/
theorem csRegRead_invariants {s t : State} {o : Nat} (h : csRegRead s o = .ok t) : KeepsInvariants s t := by
  unfold csRegRead at h
  split at h
  · injection h with h
    exact h ▸ SameParts.invariants ⟨rfl, rfl, rfl, rfl⟩
  · split at h
    · injection h with h
      exact h ▸ SameParts.invariants ⟨rfl, rfl, rfl, rfl⟩
    · cases h

end Sys2Proof.Machine
end

section
/-! SUPPORT. Host accesses, page responses, the return from a hang and termination keep the three invariants. -/
namespace Sys2Proof.Machine

/-! ### The aperture and the host -/

theorem freeQ_same (s : State) : SameParts s (freeQ s).2 := freeBytes_same s 8

theorem apertureAddress_same {s t : State} {a va : Nat} (h : apertureAddress a s = .ok (va, t)) : SameParts s t := by
  unfold apertureAddress at h
  split at h
  · simp only [Except.ok.injEq, Prod.mk.injEq] at h
    exact h.2 ▸ .refl s
  · split at h
    · simp only [Except.ok.injEq, Prod.mk.injEq] at h
      exact h.2 ▸ freeQ_same s
    · simp only [Except.ok.injEq, Prod.mk.injEq] at h
      exact h.2 ▸ .refl s
  · exact absurd h (by simp)

theorem apertureAddresses_same {n : Nat} {s t : State} {a : Nat} {vas : List Nat}
    (h : apertureAddresses a n s = .ok (vas, t)) : SameParts s t := by
  induction n generalizing s t a vas with
  | zero =>
    simp only [apertureAddresses, Except.ok.injEq, Prod.mk.injEq] at h
    exact h.2 ▸ .refl s
  | succ n ih =>
    unfold apertureAddresses at h
    split at h
    · exact absurd h (by simp)
    · rename_i h1
      split at h
      · exact absurd h (by simp)
      · rename_i h2
        simp only [Except.ok.injEq, Prod.mk.injEq] at h
        exact h.2 ▸ (apertureAddress_same h1).trans (ih h2)

theorem apertureParts_keeps {rs : List (Nat × Nat)} {s t : State} {op : AccessOp} {a k : Nat}
    (h : apertureParts op a k rs s = .ok t) : Keeps s t := by
  induction rs generalizing s k with
  | nil =>
    injection h with h
    exact h ▸ .refl s
  | cons r rs ih =>
    unfold apertureParts at h
    split at h
    · cases h
    · rename_i h1
      exact (access_keeps h1).trans (ih h)

theorem apertureRuns_keeps {s t : State} {op : AccessOp} {a : Nat} {runs : List (Nat × Nat)}
    (h : apertureRuns op a runs s = .ok t) : Keeps s t := by
  unfold apertureRuns at h
  cases op with
  | vatomic => exact accessOne_keeps h
  | vread | vfetch | vwrite => exact apertureParts_keeps h

theorem apertureAccess_invariants {s t : State} {op : AccessOp} {a : Nat} (h : apertureAccess s op a = .ok t) :
    KeepsInvariants s t := by
  unfold apertureAccess at h
  split at h
  · cases h
  · rename_i h1
    exact (apertureAddresses_same h1).invariants.trans (apertureRuns_keeps h).invariants

theorem giveHost_same (s : State) (bs : List Byte) : SameParts s (s.giveHost bs) := ⟨rfl, rfl, rfl, rfl⟩

theorem hostReadPiece_invariants {s t : State} {a n : Nat} (h : hostReadPiece a n s = .next t) :
    KeepsInvariants s t := by
  unfold hostReadPiece at h
  split at h
  · exact apertureAccess_invariants (outcome_eq_next.1 h)
  · split at h
    · injection h with h
      exact h ▸ (giveHost_same s _).invariants
    · cases h
  · cases h
  · split at h
    · injection h with h
      exact h ▸ (giveHost_same s _).invariants
    · cases h
  · cases h
  · injection h with h
    exact h ▸ ((loadSeen_keeps s _ a n).trans (noteLines_keeps _ _ _ _)).invariants.trans (giveHost_same _ _).invariants
  · cases h

theorem hostReadPieces_invariants {ps : List (Nat × Nat)} {s t : State} (h : hostReadPieces ps s = .next t) :
    KeepsInvariants s t := by
  induction ps generalizing s with
  | nil =>
    injection h with h
    exact h ▸ .refl s
  | cons p ps ih =>
    obtain ⟨u, h1, h2⟩ := andThen_eq_next.1 h
    exact (hostReadPiece_invariants h1).trans (ih h2)

theorem hostRead_invariants {s t : State} {a n : Nat} (h : hostRead s a n = .next t) : KeepsInvariants s t :=
  .trans (t := { s with hostData := [] }) (SameParts.invariants ⟨rfl, rfl, rfl, rfl⟩) (hostReadPieces_invariants h)

theorem systemWrite_keeps (s : State) (a : Nat) (d : List Byte) : Keeps s (systemWrite a d s) :=
  (storeSeen_keeps s .host a d).trans (noteLines_keeps _ _ _ _)

theorem hostWritePiece_invariants {s t : State} {a : Nat} {d : List Byte} (h : hostWritePiece a d s = .next t) :
    KeepsInvariants s t := by
  unfold hostWritePiece at h
  split at h
  · exact apertureAccess_invariants (outcome_eq_next.1 h)
  · exact mmioWriteBytes_invariants (outcome_eq_next.1 h)
  · cases h
  · split at h
    · injection h with h
      exact h ▸ (storeSeen_keeps _ _ _ _).invariants
    · cases h
  · cases h
  · injection h with h
    exact h ▸ (systemWrite_keeps s a d).invariants
  · cases h

theorem peerWritePiece_invariants {s t : State} {a : Nat} {d : List Byte} (h : peerWritePiece a d s = .next t) :
    KeepsInvariants s t := by
  unfold peerWritePiece at h
  split at h
  · exact apertureAccess_invariants (outcome_eq_next.1 h)
  · injection h with h
    exact h ▸ .refl s
  · cases h
  · injection h with h
    exact h ▸ .refl s
  · cases h
  · injection h with h
    exact h ▸ (systemWrite_keeps s a d).invariants
  · cases h

/-- The pieces of a write, made one after the other. -/
theorem writePieces_invariants {f : Nat → List Byte → State → Host.Outcome State Fault Refusal}
    (hf : ∀ a d s t, f a d s = .next t → KeepsInvariants s t) {ps : List (Nat × Nat)} {d : List Byte} {s t : State}
    (h : writePieces f ps d s = .next t) : KeepsInvariants s t := by
  induction ps generalizing d s with
  | nil =>
    injection h with h
    exact h ▸ .refl s
  | cons p ps ih =>
    obtain ⟨u, h1, h2⟩ := andThen_eq_next.1 h
    exact (hf _ _ _ _ h1).trans (ih h2)

theorem hostWrite_invariants {s t : State} {a : Nat} {d : List Byte} (h : hostWrite s a d = .next t) :
    KeepsInvariants s t := writePieces_invariants (fun _ _ _ _ => hostWritePiece_invariants) h

theorem peerWrite_invariants {s t : State} {a : Nat} {d : List Byte} (h : peerWrite s a d = .next t) :
    KeepsInvariants s t := writePieces_invariants (fun _ _ _ _ => peerWritePiece_invariants) h

theorem systemAtomic_invariants (s : State) (a n : Nat) (f : RmwFun) : KeepsInvariants s (systemAtomic a n f s) :=
  .trans (t := { s with hostData := Memory.readBytes s.mem a n }) (SameParts.invariants ⟨rfl, rfl, rfl, rfl⟩)
    ((noteLines_keeps _ .host a n).trans (rmwStore_keeps _ _ _ _ _)).invariants

theorem hostAtomic_invariants {s t : State} {a n : Nat} {f : RmwFun} (h : hostAtomic s a n f = .next t) :
    KeepsInvariants s t := by
  have window (h : andThen (hostRead s a n) (fun t => hostWrite t a (rmwBytes n f t.hostData)) = .next t) :
      KeepsInvariants s t := by
    obtain ⟨u, h1, h2⟩ := andThen_eq_next.1 h
    exact (hostRead_invariants h1).trans (hostWrite_invariants h2)
  unfold hostAtomic at h
  split at h
  · exact apertureAccess_invariants (outcome_eq_next.1 h)
  · injection h with h
    exact h ▸ systemAtomic_invariants s a n f
  · exact window h
  · exact window h
  · cases h
  · cases h
  · cases h

/-! ### Page responses -/

theorem RegsOk.forgetContext {s : State} (h : RegsOk s) (k : BitVec 32) : RegsOk (forgetContext s k) :=
  { h with
    savedFields := fun x hx => h.savedFields x (List.mem_of_mem_filter hx)
    mocsFields := fun x hx => h.mocsFields x (List.mem_of_mem_filter hx)
    l3SavedFields := fun x hx => h.l3SavedFields x (List.mem_of_mem_filter hx) }

theorem forgetContext_invariants (s : State) (k : BitVec 32) : KeepsInvariants s (forgetContext s k) :=
  .of_registers rfl rfl rfl (fun h => h.forgetContext k)

theorem lastAnswered_invariants (s : State) (r : PageRequest) : KeepsInvariants s (lastAnswered s r) := by
  unfold lastAnswered
  split
  · exact (forgetContext_invariants s _).trans (post_same _ _ _).invariants
  · split
    · exact .refl s
    · exact (post_same _ _ _).invariants

theorem removeRequest_keeps (s : State) (i : Nat) : Keeps s (removeRequest s i) := .of_same rfl rfl rfl

theorem shootDownFaulted_eng (s : State) (p : BitVec 20) (n : Nat) (e : Engine) : (shootDownFaulted s p n).eng e =
    { s.eng e with facts := dropFaultedOf p n (s.eng e).facts } := PerEngine.get_map _ _ _

/-- Only facts go. -/
theorem shootDownFaulted_keeps (s : State) (p : BitVec 20) (n : Nat) : Keeps s (shootDownFaulted s p n) where
  core := rfl
  mem := id
  eng e := by
    rw [shootDownFaulted_eng]
    exact ⟨rfl, id, rfl, rfl⟩

theorem unblock_keeps (s : State) (e : Engine) : Keeps s (unblock s e) := by
  unfold unblock
  split
  · exact .of_same rfl rfl rfl
  · exact .refl s

theorem returnFromHalt_keeps (s : State) (e : Engine) : Keeps s (returnFromHalt s e) := by
  unfold returnFromHalt
  split
  · exact (setRun_keeps s e (by simp)).trans (unblock_keeps _ e)
  all_goals exact .refl s

theorem resumeHalted_keeps (s : State) (e : Option Engine) : Keeps s (resumeHalted s e) := by
  cases e with
  | none => exact .refl s
  | some e => exact returnFromHalt_keeps s e

theorem responseOk_invariants {s t : State} {p : BitVec 20} {r : PageRequest} (h : responseOk s p r = .ok t) :
    KeepsInvariants s t := by
  have answered := (removeRequest_keeps s r.prgIndex).trans (shootDownFaulted_keeps _ p r.page)
  unfold responseOk at h
  dsimp only at h
  split at h
  · injection h with h
    exact h ▸ answered.invariants.trans (lastAnswered_invariants _ r)
  · split at h
    · refine KeepsInvariants.trans ?_ (drain_invariants h)
      split
      · exact (answered.trans (resumeHalted_keeps _ _)).invariants
      · exact answered.invariants
    · exact answered.invariants.trans (drain_invariants h)
    · exact answered.invariants.trans (drain_invariants h)

theorem abandonFailed_invariants {s t : State} {w : Waiter} (h : abandonFailed s w = .ok t) : KeepsInvariants s t := by
  unfold abandonFailed at h
  split at h
  · exact (loseTable_keeps s .render).invariants.trans (attempt_invariants h)
  · injection h with h
    exact h ▸ (completeInvalid_keeps s w.req).invariants

theorem abandonAllFailed_invariants {ws : List Waiter} {s t : State} (h : abandonAllFailed ws s = .ok t) :
    KeepsInvariants s t := by
  induction ws generalizing s with
  | nil =>
    injection h with h
    exact h ▸ .refl s
  | cons w ws ih =>
    unfold abandonAllFailed at h
    split at h
    · rename_i h1
      exact (abandonFailed_invariants h1).trans (ih h)
    · cases h

theorem failEngine_invariants {s t : State} {p : BitVec 20} {e : Engine} (h : failEngine p s e = .ok t) :
    KeepsInvariants s t := by
  unfold failEngine at h
  split at h
  · injection h with h
    exact h ▸ .refl s
  · rename_i c _
    split at h
    · refine KeepsInvariants.trans ?_ (abandonAllFailed_invariants h)
      exact ((((markBad_keeps s e).invariants.trans (rememberFailed_same _ c.contextID).invariants).trans
        (post_same _ _ _).invariants).trans (dropWaiting_same _ e).invariants).trans (returnFromHalt_keeps _ e).invariants
    · injection h with h
      exact h ▸ .refl s

theorem failEngines_invariants {p : BitVec 20} {es : List Engine} {s t : State} (h : failEngines p es s = .ok t) :
    KeepsInvariants s t := by
  induction es generalizing s with
  | nil =>
    injection h with h
    exact h ▸ .refl s
  | cons e es ih =>
    unfold failEngines at h
    split at h
    · rename_i h1
      exact (failEngine_invariants h1).trans (ih h)
    · cases h

theorem reportAbsent_same (p : BitVec 20) (xs : List (Option Engine × BitVec 32)) (s : State) :
    SameParts s (reportAbsent p xs s) := by
  induction xs generalizing s with
  | nil => exact .refl s
  | cons x xs ih =>
    exact (((rememberBad_same s x.2).trans (rememberFailed_same _ x.2)).trans (post_same _ _ _)).trans (ih _)

theorem shootDownAll_keeps (qs : List PageRequest) (s : State) :
    Keeps s (qs.foldl (fun t q => shootDownFaulted t q.pasid q.page) s) := by
  induction qs generalizing s with
  | nil => exact .refl s
  | cons q qs ih => exact (shootDownFaulted_keeps s _ _).trans (ih _)

theorem removeFailed_keeps (s : State) (p : BitVec 20) (i : Nat) : Keeps s (removeFailed s p i) := by
  refine Keeps.trans ?_ (shootDownAll_keeps _ _)
  exact .of_same rfl rfl rfl

theorem responseFailed_invariants {s t : State} {p : BitVec 20} {r : PageRequest}
    (h : responseFailed s p r = .ok t) : KeepsInvariants s t := by
  have rf : KeepsInvariants s { s with pci := { s.pci with rf := true } } := setPci_invariants id id
  unfold responseFailed at h
  dsimp only at h
  split at h
  · injection h with h
    exact h ▸ rf.trans ((removeRequest_keeps _ _).invariants.trans (lastAnswered_invariants _ r))
  · split at h
    · rename_i h1
      exact ((rf.trans (reportAbsent_same _ _ _).invariants).trans (removeFailed_keeps _ _ _).invariants).trans
        ((failEngines_invariants h1).trans (drain_invariants h))
    · cases h

theorem pageResponse_invariants {s t : State} {p : BitVec 20} {i : Nat} {rc : BitVec 4}
    (h : pageResponse s p i rc = .ok t) : KeepsInvariants s t := by
  unfold pageResponse at h
  split at h
  · injection h with h
    exact h ▸ setPci_invariants id id
  · split at h
    · exact responseOk_invariants h
    · exact responseFailed_invariants h

/-! ### The return from a hang, termination -/

theorem faultContinue_invariants {s t : State} {e : Engine} (h : faultContinue s e = .ok t) : KeepsInvariants s t := by
  unfold faultContinue at h
  split at h
  · split at h
    · refine KeepsInvariants.trans ?_ (drain_invariants h)
      have runs : Keeps s (s.setEng e { s.eng e with run := .running, needsReset := (s.eng e).lostTable }) :=
        setEng_keeps ⟨rfl, nofun, rfl, rfl⟩
      have behind := runs.then_same (u := { s.setEng e { s.eng e with run := .running, needsReset := (s.eng e).lostTable }
        with waiting := (takeFaulted s.waiting e).2 }) rfl rfl rfl
      split
      · exact (behind.trans (completeInvalid_keeps _ _)).invariants
      · exact behind.invariants
    · exact (setRun_keeps s e (by simp)).invariants.trans (drain_invariants h)
  all_goals
    injection h with h
    exact h ▸ .refl s

theorem abandonList_keeps (ws : List Waiter) (e : Engine) (s : State) : Keeps s (abandonList ws e s) := by
  induction ws generalizing s with
  | nil => exact .refl s
  | cons w ws ih =>
    unfold abandonList
    refine Keeps.trans ?_ (ih _)
    split
    · exact completeInvalid_keeps _ _
    · exact .refl s

theorem takeOut_invariants (s : State) (e : Engine) : KeepsInvariants s (takeOut s e) :=
  ((((dropWaiting_same s e).invariants.trans (abandonList_keeps s.waiting e _).invariants).trans
    (leaveEngine_invariants _ e true)).trans
      ((wipeHdcOf_keeps _ e).trans (unblock_keeps _ e)).invariants).trans (setRun_keeps _ e (by simp)).invariants

theorem takeOutOf_invariants (k : BitVec 32) (s : State) (e : Engine) : KeepsInvariants s (takeOutOf k s e) := by
  unfold takeOutOf
  split
  · exact .refl s
  · split
    · exact takeOut_invariants s e
    · exact .refl s

theorem lastForAbsent_same (s : State) (k : BitVec 32) : SameParts s (lastForAbsent s k) := by
  unfold lastForAbsent
  split
  · exact .refl s
  · exact sendLastRequest_same _ _ _ _ _

theorem terminate_invariants {s t : State} {k : BitVec 32} (h : terminate s k = .ok t) : KeepsInvariants s t := by
  unfold terminate at h
  dsimp only at h
  refine KeepsInvariants.trans ?_ (drain_invariants h)
  have forget : KeepsInvariants s (forgetAway s k) := SameParts.invariants ⟨rfl, rfl, rfl, rfl⟩
  have out : KeepsInvariants s (if isResident (forgetAway s k) k then allEngines.foldl (takeOutOf k) (forgetAway s k)
      else lastForAbsent (forgetAway s k) k) := by
    split
    · exact forget.trans (foldl_invariants (takeOutOf_invariants k) _ _)
    · exact forget.trans (lastForAbsent_same _ _).invariants
  refine out.trans ?_
  generalize (if isResident (forgetAway s k) k then allEngines.foldl (takeOutOf k) (forgetAway s k)
      else lastForAbsent (forgetAway s k) k) = u
  split
  · exact (post_same _ _ _).invariants
  · exact (forgetContext_invariants _ _).trans (post_same _ _ _).invariants

end Sys2Proof.Machine
end

section
/-! SUPPORT. Resets, events, parameters and questions keep the three invariants; so does every action, and so every step. -/
namespace Sys2Proof.Machine

/-! ### Resets -/

/-- Taking a context out changes `PASID_State` and the list of contexts that are away, and no more. -/
theorem dropContext_eq (s : State) (e : Engine) : dropContext s e =
    { s with pasidState := (dropContext s e).pasidState, awayContexts := (dropContext s e).awayContexts } := by
  unfold dropContext
  split
  · rfl
  · rw [leavePasid_eq]
    unfold noteAway
    split <;> rfl

theorem unblock_same (s : State) (e : Engine) : SameParts s (unblock s e) :=
  .sometimes ⟨rfl, rfl, rfl, rfl⟩ (.refl s)

theorem freeDescriptor_same (s : State) : SameParts s (freeDescriptor s).2 :=
  ((((freeQ_same s).trans (freeQ_same _)).trans (freeQ_same _)).trans (freeQ_same _)).trans (freeQ_same _)

theorem RegsOk.resetRenderParts {s : State} (h : RegsOk s) : RegsOk (resetRenderParts s) :=
  { h with trttFields := TrttRegs.reset_ok }

/-- The machine before a reset engine is put at its reset values. -/
def beforeReset (s : State) (e : Engine) : State :=
  (freeDescriptor (unblock (dropContext (dropMessages s e) e) e)).2

/-- The state of a reset engine (R1381). -/
def EngineState.wiped (x : EngineState) (d : Descriptor) : EngineState :=
  { x with desc := d, ctx := none, run := .idle, needsReset := false, lostTable := false, streamFaultCount := 0 }

theorem beforeReset_same (s : State) (e : Engine) : SameParts (dropContext (dropMessages s e) e) (beforeReset s e) :=
  (unblock_same _ e).trans (freeDescriptor_same _)

theorem beforeReset_engines (s : State) (e : Engine) : (beforeReset s e).engines = s.engines := by
  rw [(beforeReset_same s e).engines, dropContext_eq]
  rfl

/-- A reset of an engine, and of the parts of the render engine that are outside it. -/
theorem resetEngine_eq (s : State) (e : Engine) : ∃ d, resetEngine s e =
    if e = .render then resetRenderParts ((beforeReset s e).setEng e ((s.eng e).wiped d))
    else (beforeReset s e).setEng e ((s.eng e).wiped d) := by
  refine ⟨(freeDescriptor (unblock (dropContext (dropMessages s e) e) e)).1, ?_⟩
  have x : (beforeReset s e).eng e = s.eng e := by rw [State.eng, beforeReset_engines, State.eng]
  rw [← x]
  rfl

theorem resetEngine_eng (s : State) (e : Engine) : ∃ d, ∀ f, (resetEngine s e).eng f =
    if e = f then (s.eng e).wiped d else s.eng f := by
  obtain ⟨d, h⟩ := resetEngine_eq s e
  refine ⟨d, fun f => ?_⟩
  have engines : (resetEngine s e).engines = s.engines.set e ((s.eng e).wiped d) := by
    rw [h, ← beforeReset_engines s e]
    split <;> rfl
  rw [State.eng, engines]
  exact PerEngine.get_set _ _ _ _

theorem dropContext_dropMessages_pasidState (s : State) (e : Engine) :
    (dropContext (dropMessages s e) e).pasidState = (dropContext s e).pasidState := by
  cases h : (s.eng e).ctx with
  | none => rw [dropContext_none h, dropContext_none (s := dropMessages s e) h]; rfl
  | some c =>
    rw [dropContext_pasidState h, dropContext_pasidState (s := dropMessages s e) h]
    unfold leavePasid
    split <;> rfl

theorem resetEngine_vacates (s : State) (e : Engine) : Vacates s (resetEngine s e) e := by
  obtain ⟨d, eng⟩ := resetEngine_eng s e
  refine ⟨?_, ?_, fun f hf => ?_⟩
  · obtain ⟨d, h⟩ := resetEngine_eq s e
    rw [← dropContext_dropMessages_pasidState, ← (beforeReset_same s e).pasidState, h]
    split <;> rfl
  · rw [eng, if_pos rfl]
    rfl
  · rw [eng, if_neg (Ne.symm hf)]

theorem resetEngine_invariants (s : State) (e : Engine) : KeepsInvariants s (resetEngine s e) := by
  obtain ⟨d, h⟩ := resetEngine_eq s e
  refine ⟨fun k => ?_, fun k => ?_, (resetEngine_vacates s e).pasidOk⟩
  · have mem : (resetEngine s e).mem = s.mem := by
      have before : (beforeReset s e).mem = s.mem := by
        rw [(beforeReset_same s e).mem, dropContext_eq]
        rfl
      rw [h, ← before]
      split <;> rfl
    exact (congrArg (fun m => Memory.wf m = true) mem).mpr k
  · have before : RegsOk ((beforeReset s e).setEng e ((s.eng e).wiped d)) := by
      refine k.congr (Eq.trans (b := (beforeReset s e).registers) rfl ?_)
      rw [(beforeReset_same s e).registers, dropContext_eq]
      rfl
    rw [h]
    split
    · exact before.resetRenderParts
    · exact before

theorem beginReset_invariants (s : State) (e : Engine) : KeepsInvariants s (beginReset s e) :=
  (resetEngine_invariants s e).trans (setEng_invariants rfl id)

theorem freeDwords_same (s : State) (n : Nat) : SameParts s (freeDwords s n).2 := by
  induction n generalizing s with
  | zero => exact .refl s
  | succ n ih => exact (freeBytes_same s 4).trans (ih _)

theorem length_freeDwords (s : State) (n : Nat) : (freeDwords s n).1.length = n := by
  induction n generalizing s with
  | zero => rfl
  | succ n ih => rw [freeDwords, List.length_cons, ih]

theorem resetRegisters_gamt (s : State) : (resetRegisters s).gamt = gamtReset := by simp only [resetRegisters]

theorem busReset_gamt (s : State) : (busReset s).gamt = gamtReset := by simp only [busReset, reset_gamt]

/-- The registers that a device reset puts at their reset values meet the invariant there (R1381, R1392). -/
theorem RegsOk.resetRegisters {s : State} (h : RegsOk s) : RegsOk (resetRegisters s) :=
  { h with
    l3Size := length_l3Reset
    l3Fields := l3Reset_fields
    gamtSize := resetRegisters_gamt s ▸ length_gamtReset
    gamtFields := resetRegisters_gamt s ▸ gamtReset_fields
    fenceCount := List.length_replicate
    pasidFields := regsOk_reset.pasidFields
    atsFields := regsOk_reset.atsFields
    params := h.params }

theorem setPalette_invariants {s : State} {p : List DWord} (h : p.length = 256) :
    KeepsInvariants s { s with palette := p } := .of_registers rfl rfl rfl (fun k => k.setPalette h)

theorem openMisses_same (s : State) : SameParts s { s with missBlocked := none } := ⟨rfl, rfl, rfl, rfl⟩

theorem resetRegisters_invariants (s : State) : KeepsInvariants s (resetRegisters s) :=
  .of_registers rfl rfl rfl RegsOk.resetRegisters

theorem flr_invariants {s t : State} (h : flr s = .ok t) : KeepsInvariants s t := by
  have engines : KeepsInvariants s (allEngines.foldl beginReset s) := foldl_invariants beginReset_invariants _ s
  unfold flr at h
  dsimp only at h
  refine KeepsInvariants.trans ?_ (drain_invariants h)
  refine ((engines.trans (resetRegisters_invariants _)).trans (openMisses_same _).invariants).trans ?_
  exact (freeDwords_same _ 256).invariants.trans
    (setPalette_invariants (length_freeDwords _ 256))

/-- After a reset of every engine of a list none of them has a context, nor has one that had none before. -/
theorem foldl_resetEngine_ctx {l : List Engine} {s : State} {f : Engine} (h : f ∈ l ∨ (s.eng f).ctx = none) :
    ((l.foldl resetEngine s).eng f).ctx = none := by
  induction l generalizing s with
  | nil => exact h.resolve_left List.not_mem_nil
  | cons e l ih =>
    refine ih ?_
    by_cases hf : f = e
    · exact .inr (hf ▸ (resetEngine_vacates s e).ctx)
    · refine h.imp (fun m => (List.mem_cons.1 m).resolve_left hf) (fun k => ?_)
      rw [(resetEngine_vacates s e).others f hf]
      exact k

theorem mem_allEngines (e : Engine) : e ∈ allEngines := by
  cases e <;> simp [allEngines]

theorem busReset_ctx (s : State) (e : Engine) : ((busReset s).eng e).ctx = none := by
  have reset := foldl_resetEngine_ctx (s := s) (.inl (mem_allEngines e))
  have engines := (freeDwords_same (allEngines.foldl resetEngine s) 256).engines
  rw [State.eng, ← engines] at reset
  rw [State.eng, busReset, PerEngine.get_map]
  exact reset

/-- With no context anywhere every count is 0. -/
theorem pasidOk_of_empty {s : State} (hp : s.pasidState = []) (hc : ∀ e, (s.eng e).ctx = none) : PasidOk s where
  listedOnce := by simp [hp]
  counts p := by simp only [hp, residents, inPasid_of_none (hc _), pasidCount]
  emptyInDelivery e _ := hc e

theorem RegsOk.busReset {s : State} (h : RegsOk s) : RegsOk (busReset s) :=
  { regsOk_reset with
    gamtSize := busReset_gamt s ▸ length_gamtReset
    gamtFields := busReset_gamt s ▸ gamtReset_fields
    paletteSize := length_freeDwords _ 256
    savedFields := h.savedFields
    mocsFields := h.mocsFields
    l3SavedFields := h.l3SavedFields
    mchbarForm := h.mchbarForm
    params := h.params }

theorem busReset_invariants (s : State) : KeepsInvariants s (busReset s) :=
  ⟨id, RegsOk.busReset, fun _ => pasidOk_of_empty rfl (busReset_ctx s)⟩

/-! ### Events, parameters, questions -/

theorem finishResets_invariants (s : State) : KeepsInvariants s (finishResets s) :=
  foldl_invariants
    (f := fun t e => t.setEng e { t.eng e with resetPending := (t.eng e).resetPending && untaken t e })
    (fun _ _ => setEng_invariants rfl id) _ s

theorem takeEvents_invariants {s t : State} {d : EventDest} (h : takeEvents s d = .ok t) : KeepsInvariants s t := by
  unfold takeEvents at h
  cases d with
  | driver | scheduler | commandStreamers =>
    injection h with h
    exact h ▸ SameParts.invariants ⟨rfl, rfl, rfl, rfl⟩
  | iommu =>
    refine KeepsInvariants.trans ?_ (drain_invariants h)
    refine KeepsInvariants.trans ?_ (finishResets_invariants _)
    exact SameParts.invariants ⟨rfl, rfl, rfl, rfl⟩

theorem setControls_invariants {s t : State} {a b : Bool} (h : setControls s a b = .ok t) : KeepsInvariants s t := by
  unfold setControls at h
  split at h
  · cases h
  · injection h with h
    exact h ▸ setPar_invariants (fun k => k)

theorem giveNumbers_same (s : State) (ns : List Nat) : SameParts s (giveNumbers s ns) := ⟨rfl, rfl, rfl, rfl⟩

theorem freeNats_same (s : State) (n : Nat) : SameParts s (freeNats s n).2 := by
  induction n generalizing s with
  | zero => exact .refl s
  | succ n ih => exact (freeQ_same s).trans (ih _)

theorem giveStated_same (s : State) (b : Bool) (ns : List Nat) : SameParts s (giveStated s b ns) := by
  unfold giveStated
  split
  · exact giveNumbers_same s ns
  · exact (freeNats_same s _).trans (giveNumbers_same _ _)

theorem setOut_same (s : State) (r : Result) : SameParts s { s with out := r } := ⟨rfl, rfl, rfl, rfl⟩

theorem giveOffset_same {s t : State} {b o : Nat} (h : giveOffset s b o = .ok t) : SameParts s t := by
  unfold giveOffset at h
  split at h
  · injection h with h
    exact h ▸ setOut_same s _
  · cases h

theorem giveAddress_same {s t : State} {b : Bool} {o : Nat} (h : giveAddress s b o = .ok t) : SameParts s t := by
  unfold giveAddress at h
  split at h
  · exact giveOffset_same h
  · injection h with h
    exact h ▸ (freeQ_same s).trans (setOut_same _ _)

theorem pureAnswer_same (q : Query) (s : State) : SameParts s (pureAnswer q s) := by
  cases q with
  | channels | depthPixel => exact giveNumbers_same s _
  | intensity | luminance => exact setOut_same s _
  | stencilByte | chroma | ccs3D => exact .refl s
  | element | alignUnit | astcBlock | astcRows | quiltTexel => exact giveStated_same s _ _
  | r1Texel row x =>
    show SameParts s (r1At row x s)
    unfold r1At
    split
    · exact setOut_same s _
    · exact giveStated_same s _ _
  | fxt1Texel v x y =>
    show SameParts s (fxt1At v x y s)
    unfold fxt1At
    split
    · exact setOut_same s _
    · exact giveStated_same s _ _
  | astcSlab m l k =>
    simp only [pureAnswer]
    split
    · exact giveStated_same s _ _
    · exact giveStated_same s _ _
  | mcsBits n =>
    simp only [pureAnswer]
    split
    · exact giveNumbers_same s _
    · exact giveStated_same s _ _
  | depth3D d t b n l =>
    simp only [pureAnswer]
    split
    · exact giveNumbers_same s _
    · exact giveStated_same s _ _

theorem addressAnswer_same {q : Query} {s t : State} (h : addressAnswer q s = some (.ok t)) : SameParts s t := by
  cases q <;> simp only [addressAnswer, Option.some.injEq, reduceCtorEq] at h
  case stencilByte =>
    unfold stencilAnswer at h
    split at h
    · exact giveOffset_same h
    · cases h
  case chroma => exact giveOffset_same h
  case ccs3D => exact giveAddress_same h

theorem answerQuery_same {q : Query} {s t : State} (h : answerQuery q s = .ok t) : SameParts s t := by
  unfold answerQuery at h
  split at h
  · cases h
  · cases ha : addressAnswer q s with
    | none =>
      rw [ha, Option.getD_none, Except.ok.injEq] at h
      exact h ▸ pureAnswer_same q s
    | some r =>
      rw [ha, Option.getD_some] at h
      exact addressAnswer_same (h ▸ ha)

/-! ### Every action -/

theorem cfgRead_invariants {s t : State} {o n : Nat} (h : cfgRead s o n = .next t) : KeepsInvariants s t := by
  unfold cfgRead at h
  split at h
  · injection h with h
    exact h ▸ SameParts.invariants ⟨rfl, rfl, rfl, rfl⟩
  · cases h

theorem csUpdateGtt_keeps {s t : State} {va : Nat} {pte : QWord} (h : csUpdateGtt s va pte = .ok t) : Keeps s t := by
  unfold csUpdateGtt at h
  split at h
  · cases h
  · split at h
    · cases h
    · injection h with h
      exact h ▸ memWriteQ_keeps _ _ _

/-- What the OS may change only with no context resident. -/
theorem unlessResident_invariants {s t : State} (h : KeepsInvariants s t) :
    KeepsInvariants s (if anyResident s then s else t) := by
  split
  · exact .refl s
  · exact h

/-- EVERY ACTION of an agent keeps the three invariants. -/
theorem applyInput_invariants {i : Input} {s t : State} (h : applyInput i s = .next t) : KeepsInvariants s t := by
  cases i with
  | op | setIommu | flushCache | invalidateCache | flushLlc | hostFlush =>
    injection h with h
    exact h ▸ SameParts.invariants ⟨rfl, rfl, rfl, rfl⟩
  | access => exact (access_keeps (outcome_eq_next.1 h)).invariants
  | hostRead => exact hostRead_invariants h
  | hostWrite => exact hostWrite_invariants h
  | hostAtomic => exact hostAtomic_invariants h
  | peerWrite => exact peerWrite_invariants h
  | csRegWrite => exact csRegWrite_invariants (outcome_eq_next.1 h)
  | csRegRead => exact csRegRead_invariants (outcome_eq_next.1 h)
  | csDescriptor =>
    injection h with h
    exact h ▸ setDesc_invariants s _ _
  | csUpdateGtt => exact (csUpdateGtt_keeps (outcome_eq_next.1 h)).invariants
  | cfgRead => exact cfgRead_invariants h
  | cfgWrite => exact cfgWriteBytes_invariants (outcome_eq_next.1 h)
  | setFence =>
    injection h with h
    exact h ▸ .of_registers rfl rfl rfl (fun k => k.setFences (by simp [k.fenceCount]))
  | setTypes =>
    injection h with h
    exact h ▸ unlessResident_invariants (setPar_invariants (fun k => k))
  | setPrivatePat =>
    injection h with h
    exact h ▸ unlessResident_invariants (setPar_invariants (fun k => k))
  | setControls => exact setControls_invariants (outcome_eq_next.1 h)
  | setBars a b =>
    injection h with h
    exact h ▸ setPar_invariants (fun k => Params.ok_setBars k a b)
  | loadPalette =>
    injection h with h
    exact h ▸ .of_registers rfl rfl rfl (fun k => k.setPalette (by simp [k.paletteSize]))
  | setMchbar =>
    injection h with h
    exact h ▸ setMchbar_invariants s _ _
  | pageResponse => exact pageResponse_invariants (outcome_eq_next.1 h)
  | faultContinue => exact faultContinue_invariants (outcome_eq_next.1 h)
  | engineReset e => exact (beginReset_invariants s e).trans (drain_invariants (outcome_eq_next.1 h))
  | flr => exact flr_invariants (outcome_eq_next.1 h)
  | busReset =>
    injection h with h
    exact h ▸ busReset_invariants s
  | takeEvents => exact takeEvents_invariants (outcome_eq_next.1 h)
  | auxSample => exact (auxSample_keeps (outcome_eq_next.1 h)).invariants
  | query => exact (answerQuery_same (outcome_eq_next.1 h)).invariants
  | switchOut e =>
    injection h with h
    exact h ▸ switchOut_invariants s e
  | terminate => exact terminate_invariants (outcome_eq_next.1 h)
  | invalidationWait =>
    injection h with h
    exact h ▸ .trans (t := performHeld s) (SameParts.invariants ⟨rfl, rfl, rfl, rfl⟩) (post_same _ _ _).invariants

/-! ### The step -/

theorem runRecord_of_decode {bs : List Byte} {i : Instr} (h : decode bs = .ok i) (s : State) :
    runRecord bs s = andThen (exec i s) settle := by
  rw [runRecord, h]

theorem runRecord_invariants {bs : List Byte} {s t : State} (h : runRecord bs s = .next t) : KeepsInvariants s t := by
  cases hd : decode bs with
  | error => simp [runRecord, hd] at h
  | ok i =>
    rw [runRecord_of_decode hd] at h
    obtain ⟨u, hu, ht⟩ := andThen_eq_next.1 h
    exact (exec_keeps hu).invariants.trans (settle_invariants ht)

theorem step_nil {s : State} (h : s.inbox = []) : step s = .next s := by
  rw [step, h]

theorem step_op {s : State} {bs : List Byte} {rest : List Input} (h : s.inbox = .op bs :: rest) :
    step s = runRecord bs { s with inbox := rest } := by
  rw [step, h]

theorem step_input {s : State} {i : Input} {rest : List Input} (h : s.inbox = i :: rest) (hi : ∀ bs, i ≠ .op bs) :
    step s = applyInput i { s with inbox := rest } := by
  rw [step, h]
  cases i with
  | op bs => exact absurd rfl (hi bs)
  | _ => rfl

/-- EVERY STEP keeps the three invariants. -/
theorem step_invariants {s t : State} (h : step s = .next t) : KeepsInvariants s t := by
  cases hb : s.inbox with
  | nil =>
    rw [step_nil hb] at h
    injection h with h
    exact h ▸ .refl s
  | cons i rest =>
    have taken : KeepsInvariants s { s with inbox := rest } := SameParts.invariants ⟨rfl, rfl, rfl, rfl⟩
    by_cases hi : ∃ bs, i = .op bs
    · obtain ⟨bs, rfl⟩ := hi
      rw [step_op hb] at h
      exact taken.trans (runRecord_invariants h)
    · rw [step_input hb (fun bs e => hi ⟨bs, e⟩)] at h
      exact taken.trans (applyInput_invariants h)

end Sys2Proof.Machine
end

section
/-! PROOFS. The statements about a step, the invariants and the reset state. -/
namespace Sys2Proof.Machine

/-- With no message about contexts waiting an operation ends where it is. -/
theorem settle_of_requests {s : State} (h : ∀ w ∈ s.waiting, w.req.isRequest = true) : settle s = .next s := by
  rw [settle, if_neg]
  simpa using h

/-- With one waiting, what waits is done again. -/
theorem settle_of_message {s : State} {w : Waiter} (hw : w ∈ s.waiting) (h : w.req.isRequest = false) :
    settle s = outcome (drain s) := by
  rw [settle, if_pos]
  exact List.any_eq_true.2 ⟨w, hw, by rw [h]; rfl⟩

/-- Settles O4: a step on a record is `exec` and then `settle`, which does what waits again if a message is among it. -/
theorem stepPerformsTheDecodedOperation : Obligations.StepPerformsTheDecodedOperation := by
  refine ⟨fun s bs rest i hb hd => ?_, fun s => step_nil⟩
  have run : step s = andThen (exec i { s with inbox := rest }) settle := (step_op hb).trans (runRecord_of_decode hd _)
  refine ⟨fun t ht hw => ?_, fun t w ht hw hm => ?_, fun x hx => ?_, fun x hx => ?_⟩
  · rw [run, ht]
    exact settle_of_requests hw
  · rw [run, ht]
    exact settle_of_message hw hm
  · rw [run, hx]
    rfl
  · rw [run, hx]
    rfl

/-- Settles O6: the register part of the three invariants that every step keeps. -/
theorem everyStepKeepsReservedFields : Obligations.EveryStepKeepsReservedFields :=
  fun _ _ hs h => (step_invariants h).registers hs

/-- Settles O7: the count of resident contexts is kept by every step, as a context and its count come and go together. -/
theorem pasidStateCountsResidentContexts : Obligations.PasidStateCountsResidentContexts :=
  fun _ _ hs h => (step_invariants h).pasid hs

theorem reset_ctx (e : Engine) : (State.reset.eng e).ctx = none := by
  rw [State.eng, State.reset, PerEngine.get_all]
  rfl

/-- Settles O8. -/
theorem resetStateMeetsTheInvariants : Obligations.ResetStateMeetsTheInvariants :=
  ⟨rfl, regsOk_reset, pasidOk_of_empty rfl reset_ctx⟩

/-- A table that lists a function of the index. -/
theorem getElem?_map_range {α : Type} (f : Nat → α) {n i : Nat} (h : i < n) :
    ((List.range n).map f)[i]? = some (f i) := by
  simp [h]

/-- Settles O9: the two tables hold their printed defaults entry by entry, the other registers 0. -/
theorem resetGivesTheStatedRegisterValues : Obligations.ResetGivesTheStatedRegisterValues := by
  have l3 {i : Nat} (h : i < 64) : State.reset.l3Control[i]? = some (l3Default i) := getElem?_map_range l3Default h
  have gamt {i : Nat} (h : i < 512) : State.reset.gamt[i]? = some (gamtDefault (i % 64)) := by
    rw [reset_gamt]
    exact getElem?_map_range _ h
  exact ⟨rfl, rfl, rfl, l3 (by decide), l3 (by decide), l3 (by decide), gamt (by decide), gamt (by decide),
    gamt (by decide), rfl⟩

end Sys2Proof.Machine
end

section
/-! PROOFS. The delivery of a context: the message Context Launched, and what it makes of the descriptor registers. -/
namespace Sys2Proof.Machine

/-- A field of a register as a bit vector. -/
theorem ofNat_bits {w : Nat} (v : BitVec w) (hi lo : Nat) :
    BitVec.ofNat (hi + 1 - lo) (bits v hi lo) = v.extractLsb' lo (hi + 1 - lo) := by
  apply BitVec.eq_of_toNat_eq
  simp [bits]

/-- The context that the descriptor registers of an engine define (R664, R668). -/
def State.described (s : State) (e : Engine) : Ctx :=
  let d := (s.eng e).desc
  let f := d.element.extractLsb' 9 3
  let p := d.pdp0.extractLsb' 0 20
  ctxOfDescriptor d (if bit d.element 3 then .absent f p else findIommu s.iommu f p)

theorem drain_of_nothing {s : State} (h : s.waiting = []) : drain s = .ok s := by
  rw [drain, h]
  show Except.ok { s with waiting := [] } = _
  rw [← h]

theorem contextLaunched_outside {s : State} {e : Engine} (h : (s.eng e).run ≠ .switching) :
    contextLaunched s e = .ok s := if_pos h

/-- In a delivery, with a descriptor programmed as it must be (R665, R724, R111). -/
theorem contextLaunched_delivers {s : State} {e : Engine} (h : (s.eng e).run = .switching)
    (hd : deliveryRefusal s.par (s.described e) = none) :
    contextLaunched s e = drain (delivered s e (s.described e)) := by
  have described : s.described e = ctxOfDescriptor (s.eng e).desc
      (if bit (s.eng e).desc.element 3
        then .absent (BitVec.ofNat 3 (bits (s.eng e).desc.element 11 9)) (BitVec.ofNat 20 (bits (s.eng e).desc.pdp0 19 0))
        else findIommu s.iommu (BitVec.ofNat 3 (bits (s.eng e).desc.element 11 9))
          (BitVec.ofNat 20 (bits (s.eng e).desc.pdp0 19 0))) := by
    rw [State.described, ← ofNat_bits (hi := 11), ← ofNat_bits (hi := 19)]
  rw [contextLaunched, if_neg (not_not.2 h)]
  dsimp only
  rw [← described, hd]
  exact makeResident_eq s e _

theorem deliveryRefusal_legacy {p : Params} {c : Ctx} (ha : c.advanced = false) (hf : c.faultModel = 0) :
    deliveryRefusal p c = none := by
  simp [deliveryRefusal, ha, hf]

theorem deliveryRefusal_advanced {p : Params} {c : Ctx} (ha : c.advanced = true)
    (hf : c.faultModel = 1 ∨ c.faultModel = 2) (hp : c.iommu.paside = true) (hn : c.iommu.neste = false)
    (hg : p.gttCacheEnable = false) : deliveryRefusal p c = none := by
  obtain hf | hf := hf <;> simp [deliveryRefusal, iommuRefusal, ha, hf, hp, hn, hg]

/-- A message bit without its mask bit has no effect (R682, U41). -/
theorem csMessage_launched {s : State} {e : Engine} {v : DWord} (h0 : (bit v 0 && bit v 16) = false) :
    csMessage s e v = if bit v 1 && bit v 17 then contextLaunched s e else .ok s := by
  rw [csMessage, h0]
  rfl

theorem step_csMessage {s : State} {rest : List Input} {e : Engine} {v : DWord}
    (h : s.inbox = .csRegWrite e (messageOffset e) v :: rest) :
    step s = outcome (csMessage { s with inbox := rest } e v) := by
  rw [step_input h (by simp)]
  exact congrArg outcome (if_pos rfl)

theorem step_csMessage_outside {s : State} {rest : List Input} {e : Engine} {v : DWord}
    (h : s.inbox = .csRegWrite e (messageOffset e) v :: rest) (h0 : (bit v 0 && bit v 16) = false)
    (hr : (s.eng e).run ≠ .switching) : step s = .next { s with inbox := rest } := by
  rw [step_csMessage h, csMessage_launched h0, contextLaunched_outside (s := { s with inbox := rest }) hr, ite_self]
  rfl

/-- Context Launched in a delivery with nothing waiting. -/
theorem step_launched {s : State} {rest : List Input} {e : Engine} {v : DWord}
    (h : s.inbox = .csRegWrite e (messageOffset e) v :: rest) (hr : (s.eng e).run = .switching)
    (h1 : bit v 1 = true) (h17 : bit v 17 = true) (h0 : (bit v 0 && bit v 16) = false) (hw : s.waiting = [])
    (hd : deliveryRefusal s.par (s.described e) = none) :
    step s = .next (delivered { s with inbox := rest } e (s.described e)) := by
  rw [step_csMessage h, csMessage_launched h0, h1, h17]
  exact congrArg outcome
    ((contextLaunched_delivers (s := { s with inbox := rest }) hr hd).trans (drain_of_nothing hw))

/-- Settles O60: in a delivery the step is `delivered`, whose fields are read off one by one. -/
theorem contextDelivery : Obligations.ContextDelivery := by
  intro s rest e
  refine ⟨fun d h => step_input h (by simp), fun v => step_csMessage_outside, ?_⟩
  intro c v hb hr h1 h17 h0 hw f p hc hl ha
  have programmed : deliveryRefusal s.par c = none := by
    cases hadv : c.advanced with
    | false => exact deliveryRefusal_legacy hadv (hl hadv)
    | true =>
      obtain ⟨model, paside, neste, cache⟩ := ha hadv
      exact deliveryRefusal_advanced hadv model paside neste cache
  obtain rfl : c = s.described e := hc
  refine ⟨_, step_launched hb hr h1 h17 h0 hw programmed, ?_, fun g hg => ?_, rfl, rfl, hw, rfl, rfl, rfl, ?_, ?_, ?_⟩
  · rw [delivered_eng, if_pos rfl]
    rfl
  · rw [delivered_eng, if_neg (Ne.symm hg)]
    rfl
  · intro hm
    show restoredGamt s e (s.described e).contextID = s.gamt
    rw [restoredGamt, hm]
  · intro l hm
    show restoredGamt s e (s.described e).contextID = _
    rw [restoredGamt, hm]
  · intro q
    exact pasidCount_enterPasid { s with inbox := rest } _ q

end Sys2Proof.Machine
end

section
/-! SUPPORT. Page responses: the Page Request registers, what a failing response notes before it meets an engine, and what
it does to the engine on which a context of its PASID is resident (R168, R1318, R1336). -/
namespace Sys2Proof.Machine

/-! ### The Page Request Control register -/

theorem PciCaps.writeStatus_zero (p : PciCaps) : p.writeStatus 0 = p := by
  simp [PciCaps.writeStatus, nbit]

/-- Setting PRE clears S, UPGRI and RF, clearing it sets S (R168). -/
theorem PciCaps.writePre_eq (p : PciCaps) (b : Bool) :
    p.writePre b = ⟨p.pasidControl, p.atsControl, b, (p.stopped && !(!p.pre && b)) || (p.pre && !b),
      p.upgri && !(!p.pre && b), p.rf && !(!p.pre && b), p.opra⟩ := by
  obtain ⟨pasid, ats, pre, stopped, upgri, rf, opra⟩ := p
  cases pre <;> cases b <;> simp [PciCaps.writePre]

/-- The Page Request capability has a register at offset 4. -/
theorem cfgDword_prs (s : State) : ∃ x, cfgDword s (s.par.prsCapOfs + 4) = some x := by
  unfold cfgDword
  dsimp only
  split_ifs with _ _ _ _ _ hne
  case neg => exact absurd rfl hne
  all_goals exact ⟨_, rfl⟩

/-- A write below bit 16 of that DWord, by bytes, reaches the control register alone. -/
theorem cfgWriteDword_prs {s : State} {m v : DWord} (hp : s.par.pasidCapOfs ≠ s.par.prsCapOfs)
    (ha : s.par.atsCapOfs ≠ s.par.prsCapOfs) (hm : m.toNat < 65536) :
    cfgWriteDword s (s.par.prsCapOfs + 4) m v =
      { s with pci := if bit m 0 then s.pci.writePre (bit v 0) else s.pci } := by
  have low : (m &&& v).toNat / 65536 = 0 := by
    rw [BitVec.toNat_and]
    exact Nat.div_eq_of_lt (Nat.lt_of_le_of_lt Nat.and_le_left hm)
  unfold cfgWriteDword
  dsimp only
  rw [if_neg (by omega), if_neg (by omega), if_pos rfl, low, PciCaps.writeStatus_zero]

theorem cfgWriteBytes_prs {s : State} {o : Nat} {m : DWord} (ho : o / 4 * 4 = s.par.prsCapOfs + 4)
    (hm : byteMask o = m) (hlow : m.toNat < 65536) (hp : s.par.pasidCapOfs ≠ s.par.prsCapOfs)
    (ha : s.par.atsCapOfs ≠ s.par.prsCapOfs) (b : Byte) (bs : List Byte) :
    cfgWriteBytes s o (b :: bs) = cfgWriteBytes
      { s with
        pci := if bit m 0 then s.pci.writePre (bit (BitVec.ofNat 32 (b.toNat <<< (8 * (o % 4)))) 0) else s.pci }
      (o + 1) bs := by
  obtain ⟨x, hx⟩ := cfgDword_prs s
  rw [cfgWriteBytes, ho, hx, hm]
  exact congrArg (cfgWriteBytes · (o + 1) bs) (cfgWriteDword_prs hp ha hlow)

/-- A write of the control register: bit 0 is in its first byte. -/
theorem cfgWriteBytes_prsControl {s : State} (h4 : s.par.prsCapOfs % 4 = 0) (hp : s.par.pasidCapOfs ≠ s.par.prsCapOfs)
    (ha : s.par.atsCapOfs ≠ s.par.prsCapOfs) (w : Nat) :
    cfgWriteBytes s (s.par.prsCapOfs + 4) (leBytes 2 w) =
      .ok { s with pci := s.pci.writePre (w % 2 == 1) } := by
  have lowOffset : (s.par.prsCapOfs + 4) % 4 = 0 := by omega
  have highOffset : (s.par.prsCapOfs + 4 + 1) % 4 = 1 := by omega
  have lowMask : byteMask (s.par.prsCapOfs + 4) = 0xFF := by
    rw [byteMask, lowOffset]
    rfl
  have highMask : byteMask (s.par.prsCapOfs + 4 + 1) = 0xFF00 := by
    rw [byteMask, highOffset]
    rfl
  have bit0 : bit (BitVec.ofNat 32 ((BitVec.ofNat 8 w).toNat <<< (8 * ((s.par.prsCapOfs + 4) % 4)))) 0 =
      (w % 2 == 1) := by
    rw [lowOffset]
    simp only [bit, Nat.mul_zero, Nat.shiftLeft_zero, Nat.shiftRight_zero, BitVec.toNat_ofNat]
    congr 1
    omega
  have sameDword : (s.par.prsCapOfs + 4 + 1) / 4 * 4 = s.par.prsCapOfs + 4 := by omega
  rw [leBytes, leBytes, leBytes, cfgWriteBytes_prs (by omega) lowMask (by decide) hp ha, bit0]
  exact cfgWriteBytes_prs (s := { s with pci := s.pci.writePre (w % 2 == 1) }) sameDword highMask (by decide) hp ha _ _

/-! ### What a failing response notes -/

theorem shootDownAll_eq (qs : List PageRequest) (s : State) :
    qs.foldl (fun t q => shootDownFaulted t q.pasid q.page) s = { s with
      engines := (qs.foldl (fun t q => shootDownFaulted t q.pasid q.page) s).engines
      sharedFacts := (qs.foldl (fun t q => shootDownFaulted t q.pasid q.page) s).sharedFacts } := by
  induction qs generalizing s with
  | nil => rfl
  | cons q qs ih =>
    rw [List.foldl_cons, ih]
    rfl

/-- Every engine keeps all but facts. -/
theorem shootDownAll_eng (qs : List PageRequest) (s : State) (g : Engine) :
    (qs.foldl (fun t q => shootDownFaulted t q.pasid q.page) s).eng g =
      { s.eng g with facts := ((qs.foldl (fun t q => shootDownFaulted t q.pasid q.page) s).eng g).facts } := by
  induction qs generalizing s with
  | nil => rfl
  | cons q qs ih =>
    rw [List.foldl_cons, ih, shootDownFaulted_eng]

/-- What is left of the facts was there before, and is no faulted record of the requests (R734). -/
theorem mem_shootDownAll {qs : List PageRequest} {s : State} {g : Engine} {x : Fact}
    (h : x ∈ ((qs.foldl (fun t q => shootDownFaulted t q.pasid q.page) s).eng g).facts) :
    x ∈ (s.eng g).facts ∧ ∀ q ∈ qs, ∀ tlb c fe, x ≠ .faulted tlb q.page c fe q.pasid := by
  induction qs generalizing s with
  | nil => exact ⟨h, fun q hq => absurd hq List.not_mem_nil⟩
  | cons q qs ih =>
    obtain ⟨here, later⟩ := ih h
    rw [shootDownFaulted_eng] at here
    obtain ⟨before, kept⟩ := List.mem_filter.1 here
    refine ⟨before, fun q' hq' tlb c fe e => ?_⟩
    obtain rfl | hq' := List.mem_cons.1 hq'
    · rw [e] at kept
      simp at kept
    · exact later q' hq' tlb c fe e

/-- The report of a bad context (R1336): it is remembered as bad and failed, and the scheduler is told. -/
def State.told (t : State) (p : BitVec 20) (k : BitVec 32) : Prop :=
  k ∈ t.badContexts ∧ k ∈ t.failedContexts ∧ ∃ g, Event.contextError g p k .responseFailure ∈ t.events.scheduler

theorem State.told.mono {s t : State} {p : BitVec 20} {k : BitVec 32} (h : s.told p k)
    (hb : s.badContexts ⊆ t.badContexts) (hf : s.failedContexts ⊆ t.failedContexts)
    (he : s.events.scheduler ⊆ t.events.scheduler) : t.told p k := by
  obtain ⟨bad, failed, g, event⟩ := h
  exact ⟨hb bad, hf failed, g, he event⟩

theorem mem_rememberFailed (s : State) (k : BitVec 32) : k ∈ (rememberFailed s k).failedContexts := by
  unfold rememberFailed
  dsimp only
  split
  · rename_i h
    exact List.contains_iff_mem.1 h
  · exact List.mem_cons_self

theorem subset_rememberFailed (s : State) (k : BitVec 32) : s.failedContexts ⊆ (rememberFailed s k).failedContexts := by
  unfold rememberFailed
  dsimp only
  split
  · exact List.Subset.refl _
  · exact List.subset_cons_self _ _

theorem mem_rememberBad (s : State) (k : BitVec 32) : k ∈ (rememberBad s k).badContexts := by
  unfold rememberBad
  dsimp only
  split
  · rename_i h
    exact List.contains_iff_mem.1 h
  · exact List.mem_cons_self

theorem subset_rememberBad (s : State) (k : BitVec 32) : s.badContexts ⊆ (rememberBad s k).badContexts := by
  unfold rememberBad
  dsimp only
  split
  · exact List.Subset.refl _
  · exact List.subset_cons_self _ _

/-- One report. -/
def reportOne (p : BitVec 20) (s : State) (x : Option Engine × BitVec 32) : State :=
  (rememberFailed (rememberBad s x.2) x.2).post .scheduler (.contextError x.1 p x.2 .responseFailure)

theorem reportAbsent_cons (p : BitVec 20) (x : Option Engine × BitVec 32) (xs : List (Option Engine × BitVec 32))
    (s : State) : reportAbsent p (x :: xs) s = reportAbsent p xs (reportOne p s x) := rfl

theorem reportOne_told (p : BitVec 20) (s : State) (x : Option Engine × BitVec 32) : (reportOne p s x).told p x.2 :=
  ⟨mem_rememberBad s x.2, mem_rememberFailed _ x.2, x.1, List.mem_append_right _ List.mem_cons_self⟩

theorem reportOne_mono {p q : BitVec 20} {s : State} {k : BitVec 32} (h : s.told q k) (x : Option Engine × BitVec 32) :
    (reportOne p s x).told q k :=
  h.mono (subset_rememberBad s x.2) (subset_rememberFailed _ x.2) (List.subset_append_left _ _)

theorem reportAbsent_mono {p q : BitVec 20} {k : BitVec 32} (xs : List (Option Engine × BitVec 32)) {s : State}
    (h : s.told q k) : (reportAbsent p xs s).told q k := by
  induction xs generalizing s with
  | nil => exact h
  | cons x xs ih => exact ih (reportOne_mono h x)

theorem reportAbsent_told {p : BitVec 20} {xs : List (Option Engine × BitVec 32)} {s : State}
    {x : Option Engine × BitVec 32} (h : x ∈ xs) : (reportAbsent p xs s).told p x.2 := by
  induction xs generalizing s with
  | nil => exact absurd h List.not_mem_nil
  | cons y ys ih =>
    obtain rfl | h := List.mem_cons.1 h
    · exact reportAbsent_mono ys (reportOne_told p s x)
    · exact ih h

/-- Reporting changes nothing else. -/
theorem reportAbsent_eq (p : BitVec 20) (xs : List (Option Engine × BitVec 32)) (s : State) :
    reportAbsent p xs s = { s with
      badContexts := (reportAbsent p xs s).badContexts
      failedContexts := (reportAbsent p xs s).failedContexts
      events := { s.events with scheduler := (reportAbsent p xs s).events.scheduler } } := by
  induction xs generalizing s with
  | nil => rfl
  | cons x xs ih =>
    rw [reportAbsent_cons, ih]
    rfl

/-- A context that is resident nowhere and has a request is among those reported. -/
theorem mem_absentContexts_of_request {s : State} {p : BitVec 20} {q : PageRequest} (h : q ∈ s.outstanding)
    (hp : q.pasid = p) (ht : q.terminating = false) (hr : isResident s q.contextID = false) :
    (q.engine, q.contextID) ∈ absentContexts s p := by
  refine List.mem_append_left _ (List.mem_eraseDups.2 (List.mem_map.2 ⟨q, List.mem_filter.2 ⟨h, ?_⟩, rfl⟩))
  simp [hp, ht, hr]

/-- So is one that has left its engine, if not already for a request. -/
theorem mem_absentContexts_of_away {s : State} {p : BitVec 20} {x : AwayContext} (h : x ∈ s.awayContexts)
    (hp : x.pasid = p) (hr : isResident s x.contextID = false) : ∃ g, (g, x.contextID) ∈ absentContexts s p := by
  unfold absentContexts
  dsimp only
  generalize (List.map (fun r : PageRequest => (r.engine, r.contextID)) _).eraseDups = asking
  by_cases ha : x.contextID ∈ asking.map Prod.snd
  · obtain ⟨y, hy, e⟩ := List.mem_map.1 ha
    exact ⟨y.1, List.mem_append_left _ (e ▸ hy)⟩
  · refine ⟨some x.engine, List.mem_append_right _ (List.mem_filter.2 ⟨?_, ?_⟩)⟩
    · exact List.mem_map.2 ⟨x, List.mem_filter.2 ⟨h, by simp [hp, hr]⟩, rfl⟩
    · simpa using ha

end Sys2Proof.Machine
end

section
/-! SUPPORT. A failing response, from what it notes to the engine that it meets. -/
namespace Sys2Proof.Machine

/-! ### Before the engines are met -/

/-- The machine once a failing response has set RF, reported the absent contexts and taken the requests out. -/
def failureNoted (s : State) (p : BitVec 20) (prg : Nat) : State :=
  let s1 := { s with pci := { s.pci with rf := true } }
  removeFailed (reportAbsent p (absentContexts s1 p) s1) p prg

theorem removeFailed_eq (s : State) (p : BitVec 20) (prg : Nat) : removeFailed s p prg = { s with
    outstanding := s.outstanding.filter (fun q => !(q.prgIndex == prg || (!q.last && q.pasid == p)))
    engines := (removeFailed s p prg).engines
    sharedFacts := (removeFailed s p prg).sharedFacts } := by
  unfold removeFailed
  rw [shootDownAll_eq]

theorem removeFailed_eng (s : State) (p : BitVec 20) (prg : Nat) (g : Engine) : (removeFailed s p prg).eng g =
    { s.eng g with facts := ((removeFailed s p prg).eng g).facts } := shootDownAll_eng _ _ g

/-- No faulted record of a request taken out is left (R734). -/
theorem removeFailed_facts {s : State} {p : BitVec 20} {prg : Nat} {q : PageRequest} (hq : q ∈ s.outstanding)
    (h : q.prgIndex = prg ∨ (q.last = false ∧ q.pasid = p)) (g : Engine) (tlb : TlbId) (c : FaultCode) (fe : Bool) :
    .faulted tlb q.page c fe q.pasid ∉ ((removeFailed s p prg).eng g).facts := fun m => by
  refine (mem_shootDownAll m).2 q (List.mem_filter.2 ⟨hq, ?_⟩) tlb c fe rfl
  obtain h | ⟨hl, hp⟩ := h
  · simp [h]
  · simp [hl, hp]

/-- What is noted changes the Page Request status, the requests, the marks, the facts, and what the scheduler is told. -/
theorem failureNoted_eq (s : State) (p : BitVec 20) (prg : Nat) : failureNoted s p prg = { s with
    pci := { s.pci with rf := true }
    outstanding := (failureNoted s p prg).outstanding
    badContexts := (failureNoted s p prg).badContexts
    failedContexts := (failureNoted s p prg).failedContexts
    engines := (failureNoted s p prg).engines
    sharedFacts := (failureNoted s p prg).sharedFacts
    events := { s.events with scheduler := (failureNoted s p prg).events.scheduler } } := by
  unfold failureNoted
  dsimp only
  rw [removeFailed_eq, reportAbsent_eq]

theorem failureNoted_outstanding (s : State) (p : BitVec 20) (prg : Nat) : (failureNoted s p prg).outstanding =
    s.outstanding.filter (fun q => q.prgIndex != prg && (q.last || q.pasid != p)) := by
  unfold failureNoted
  dsimp only
  rw [removeFailed_eq, reportAbsent_eq]
  refine List.filter_congr (fun q _ => ?_)
  rw [Bool.not_or, Bool.not_and, Bool.not_not]
  rfl

theorem failureNoted_eng (s : State) (p : BitVec 20) (prg : Nat) (g : Engine) : (failureNoted s p prg).eng g =
    { s.eng g with facts := ((failureNoted s p prg).eng g).facts } := by
  unfold failureNoted
  dsimp only
  rw [removeFailed_eng, reportAbsent_eq]
  rfl

theorem failureNoted_waiting (s : State) (p : BitVec 20) (prg : Nat) : (failureNoted s p prg).waiting = s.waiting := by
  rw [failureNoted_eq]

theorem failureNoted_missBlocked (s : State) (p : BitVec 20) (prg : Nat) :
    (failureNoted s p prg).missBlocked = s.missBlocked := by
  rw [failureNoted_eq]

theorem failureNoted_returns (s : State) (p : BitVec 20) (prg : Nat) : (failureNoted s p prg).returns = s.returns := by
  rw [failureNoted_eq]

theorem failureNoted_ctx (s : State) (p : BitVec 20) (prg : Nat) (g : Engine) :
    ((failureNoted s p prg).eng g).ctx = (s.eng g).ctx := by
  rw [failureNoted_eng]

theorem failureNoted_run (s : State) (p : BitVec 20) (prg : Nat) (g : Engine) :
    ((failureNoted s p prg).eng g).run = (s.eng g).run := by
  rw [failureNoted_eng]

theorem failureNoted_inPasid (s : State) (p : BitVec 20) (prg : Nat) (g : Engine) (q : BitVec 20) :
    ((failureNoted s p prg).eng g).inPasid q = (s.eng g).inPasid q := by
  rw [failureNoted_eng]
  rfl

theorem failureNoted_facts {s : State} {p : BitVec 20} {prg : Nat} {q : PageRequest} (hq : q ∈ s.outstanding)
    (h : q.prgIndex = prg ∨ (q.last = false ∧ q.pasid = p)) (g : Engine) (tlb : TlbId) (c : FaultCode) (fe : Bool) :
    .faulted tlb q.page c fe q.pasid ∉ ((failureNoted s p prg).eng g).facts := by
  refine removeFailed_facts ?_ h g tlb c fe
  rw [reportAbsent_eq]
  exact hq

/-- Every context of the PASID that is resident nowhere is told (R1336). -/
theorem failureNoted_told {s : State} {p : BitVec 20} (prg : Nat) {g : Option Engine} {k : BitVec 32}
    (h : (g, k) ∈ absentContexts { s with pci := { s.pci with rf := true } } p) : (failureNoted s p prg).told p k := by
  refine (reportAbsent_told (s := { s with pci := { s.pci with rf := true } }) h).mono ?_ ?_ ?_ <;>
  · unfold failureNoted
    dsimp only
    rw [removeFailed_eq]
    exact List.Subset.refl _

/-! ### The engines -/

theorem failEngine_other {s : State} {p : BitVec 20} {e : Engine} (h : (s.eng e).inPasid p = false) :
    failEngine p s e = .ok s := by
  unfold failEngine
  unfold EngineState.inPasid at h
  cases hc : (s.eng e).ctx with
  | none => rfl
  | some c =>
    simp only [hc] at h
    simp only [h, Bool.false_eq_true, if_false]

theorem failEngines_others {s : State} {p : BitVec 20} {es : List Engine}
    (h : ∀ e ∈ es, (s.eng e).inPasid p = false) : failEngines p es s = .ok s := by
  induction es with
  | nil => rfl
  | cons e es ih =>
    rw [failEngines, failEngine_other (h e List.mem_cons_self)]
    exact ih (fun g hg => h g (List.mem_cons_of_mem _ hg))

/-- With a context of the PASID on one engine only that engine is met. -/
theorem failEngines_single {s t : State} {p : BitVec 20} {e : Engine} {es : List Engine} (hn : es.Nodup) (he : e ∈ es)
    (hs : ∀ g, g ≠ e → (s.eng g).inPasid p = false) (h : failEngine p s e = .ok t)
    (ht : ∀ g, g ≠ e → (t.eng g).inPasid p = false) : failEngines p es s = .ok t := by
  induction es with
  | nil => exact absurd he List.not_mem_nil
  | cons f es ih =>
    obtain ⟨hf, hn⟩ := List.nodup_cons.1 hn
    rw [failEngines]
    by_cases hfe : f = e
    · rw [hfe, h]
      exact failEngines_others (fun g hg => ht g (fun hge => hf (hfe ▸ hge ▸ hg)))
    · rw [failEngine_other (hs f hfe)]
      exact ih hn ((List.mem_cons.1 he).resolve_left (Ne.symm hfe))

/-- The context of an engine is marked bad and failed, the scheduler is told, and nothing of the engine waits. -/
def contextFailed (s : State) (e : Engine) (c : Ctx) (p : BitVec 20) : State :=
  { s with
    engines := s.engines.set e { s.eng e with ctx := some { c with bad := true } }
    failedContexts := (rememberFailed s c.contextID).failedContexts
    waiting := s.waiting.filter (fun w => !w.isOf e)
    events := { s.events with
      scheduler := s.events.scheduler ++ [.contextError e p c.contextID .responseFailure] } }

/-- Requests that complete as invalid accesses, one after the other. -/
def completeAll (ws : List Waiter) (s : State) : State := ws.foldl (fun t w => completeInvalid t w.req) s

/-- The machine once a failing response has met the engine on which the context is resident. -/
def failureMet (s : State) (e : Engine) (c : Ctx) (p : BitVec 20) : State :=
  completeAll (s.waiting.filter (fun w => w.isOf e)) (returnFromHalt (contextFailed s e c p) e)

theorem abandonAllFailed_of_untabled {ws : List Waiter} (h : ∀ w ∈ ws, w.table = none) (s : State) :
    abandonAllFailed ws s = .ok (completeAll ws s) := by
  induction ws generalizing s with
  | nil => rfl
  | cons w ws ih =>
    rw [abandonAllFailed, abandonFailed, h w List.mem_cons_self]
    exact ih (fun v hv => h v (List.mem_cons_of_mem _ hv)) _

theorem failEngine_resident {s : State} {p : BitVec 20} {e : Engine} {c : Ctx} (hc : (s.eng e).ctx = some c)
    (hp : (s.eng e).inPasid p = true) (hw : ∀ w ∈ s.waiting, w.table = none) :
    failEngine p s e = .ok (failureMet s e c p) := by
  have inPasid : (c.advanced && c.pasid == p) = true := by
    rw [EngineState.inPasid, hc] at hp
    exact hp
  have noted : dropWaiting ((rememberFailed (markBad s e) c.contextID).post .scheduler
      (.contextError e p c.contextID .responseFailure)) e = contextFailed s e c p := by
    rw [markBad, hc]
    rfl
  have waiting : ((rememberFailed (markBad s e) c.contextID).post .scheduler
      (.contextError e p c.contextID .responseFailure)).waiting = s.waiting := by
    rw [markBad, hc]
    rfl
  unfold failEngine
  simp only [hc, inPasid, if_true]
  rw [noted, waiting]
  exact abandonAllFailed_of_untabled (fun w hm => hw w (List.mem_of_mem_filter hm)) _

/-! ### What the return from a halt changes -/

theorem returnFromHalt_halted {s : State} {e : Engine} {f : PageFault} (h : (s.eng e).run = .halted f) :
    returnFromHalt s e = unblock (s.setRun e .running) e := by
  rw [returnFromHalt, h]

theorem returnFromHalt_other {s : State} {e : Engine} (h : ∀ f, (s.eng e).run ≠ .halted f) :
    returnFromHalt s e = s := by
  unfold returnFromHalt
  split
  · rename_i f hf
    exact absurd hf (h f)
  all_goals rfl

theorem unblock_eq (s : State) (e : Engine) :
    unblock s e = { s with missBlocked := if s.missBlocked = some e then none else s.missBlocked } := by
  unfold unblock blocksMisses
  by_cases h : s.missBlocked = some e <;> simp [h]

theorem returnFromHalt_eq (s : State) (e : Engine) : returnFromHalt s e = { s with
    engines := (returnFromHalt s e).engines
    missBlocked := (returnFromHalt s e).missBlocked } := by
  unfold returnFromHalt
  split
  · rw [unblock_eq]
    rfl
  all_goals rfl

/-- Only the run state of the engine may change. -/
theorem returnFromHalt_eng (s : State) (e g : Engine) : (returnFromHalt s e).eng g =
    { s.eng g with run := ((returnFromHalt s e).eng g).run } := by
  unfold returnFromHalt
  split
  · rw [unblock_eq]
    show (s.setRun e .running).eng g = { s.eng g with run := ((s.setRun e .running).eng g).run }
    rw [State.setRun, State.eng_setEng]
    split
    · rename_i h
      rw [h]
    · rfl
  all_goals rfl

theorem returnFromHalt_eng_other {s : State} {e g : Engine} (h : g ≠ e) : (returnFromHalt s e).eng g = s.eng g := by
  unfold returnFromHalt
  split
  · rw [unblock_eq]
    show (s.setRun e .running).eng g = s.eng g
    rw [State.setRun, State.eng_setEng, if_neg (Ne.symm h)]
  all_goals rfl

theorem returnFromHalt_missBlocked {s : State} {e : Engine} (h : s.missBlocked ≠ some e) :
    (returnFromHalt s e).missBlocked = s.missBlocked := by
  unfold returnFromHalt
  split
  · rw [unblock_eq]
    exact if_neg h
  all_goals rfl

/-! ### Invalid accesses -/

/-- An access that completes as invalid changes what goes back to its client, and no more. -/
theorem completeInvalid_eq (s : State) (q : Pending) : completeInvalid s q = { s with
    returns := (completeInvalid s q).returns
    hdcResponses := (completeInvalid s q).hdcResponses
    out := (completeInvalid s q).out
    freeCount := (completeInvalid s q).freeCount } := by
  cases q with
  | access a =>
    simp only [completeInvalid, freeBytes_state]
    rfl
  | hdc r =>
    simp only [completeInvalid, hdcFaultResponse, freeBytes_state, freeChoice, sendHdcResponse]
    split <;> rfl
  | walk | trtt | aux | available | switchOut => rfl

theorem completeAll_eq (ws : List Waiter) (s : State) : completeAll ws s = { s with
    returns := (completeAll ws s).returns
    hdcResponses := (completeAll ws s).hdcResponses
    out := (completeAll ws s).out
    freeCount := (completeAll ws s).freeCount } := by
  induction ws generalizing s with
  | nil => rfl
  | cons w ws ih =>
    rw [completeAll, List.foldl_cons, ← completeAll, ih, completeInvalid_eq]

theorem completeInvalid_returns (s : State) (q : Pending) : s.returns ⊆ (completeInvalid s q).returns := by
  cases q with
  | access a =>
    simp only [completeInvalid, freeBytes_state]
    exact List.subset_append_left _ _
  | hdc r =>
    simp only [completeInvalid, hdcFaultResponse, freeBytes_state, freeChoice, sendHdcResponse]
    split <;> exact List.Subset.refl _
  | walk | trtt | aux | available | switchOut => exact List.Subset.refl _

theorem completeAll_returns (ws : List Waiter) (s : State) : s.returns ⊆ (completeAll ws s).returns := by
  induction ws generalizing s with
  | nil => exact List.Subset.refl _
  | cons w ws ih => exact List.Subset.trans (completeInvalid_returns s w.req) (ih _)

/-- What goes back for an access that completes as invalid (R1324). -/
def MemAccess.returnedInvalid (a : MemAccess) (x : ClientReturn) : Prop :=
  x.tag = a.tag ∧ x.slice = a.slice ∧ x.client = a.client ∧ x.data.length = a.op.readLen ∧ x.null = false ∧
    x.done = false ∧ x.code = .noFault

theorem completeInvalid_access (s : State) (a : MemAccess) :
    ∃ x ∈ (completeInvalid s (.access a)).returns, a.returnedInvalid x :=
  ⟨_, List.mem_append_right _ List.mem_cons_self, rfl, rfl, rfl, freeBytes_length _ _, rfl, rfl, rfl⟩

theorem completeAll_access {ws : List Waiter} {s : State} {w : Waiter} {a : MemAccess} (hw : w ∈ ws)
    (ha : w.req = .access a) : ∃ x ∈ (completeAll ws s).returns, a.returnedInvalid x := by
  induction ws generalizing s with
  | nil => exact absurd hw List.not_mem_nil
  | cons v ws ih =>
    obtain rfl | hw := List.mem_cons.1 hw
    · obtain ⟨x, hx, back⟩ := completeInvalid_access s a
      rw [← ha] at hx
      exact ⟨x, completeAll_returns ws _ hx, back⟩
    · exact ih hw

/-! ### The step -/

theorem step_pageResponse {s : State} {rest : List Input} {p : BitVec 20} {i : Nat} {rc : BitVec 4}
    (h : s.inbox = .pageResponse p i rc :: rest) : step s = outcome (pageResponse { s with inbox := rest } p i rc) :=
  step_input h (by simp)

theorem responseFailed_eq {s t : State} {p : BitVec 20} {r : PageRequest} (hr : r.terminating = false)
    (ht : failEngines p allEngines (failureNoted s p r.prgIndex) = .ok t) : responseFailed s p r = drain t := by
  unfold failureNoted at ht
  unfold responseFailed
  dsimp only at ht ⊢
  rw [hr, Bool.and_false, if_neg (by simp), ht]

/-- A failing response to a request that is not a termination's: what it notes, and then the engines. -/
theorem step_failingResponse {s t : State} {rest : List Input} {p : BitVec 20} {r : PageRequest} {rc : BitVec 4}
    (h : s.inbox = .pageResponse p r.prgIndex rc :: rest) (hf : findRequest s r.prgIndex = some r) (hrc : rc ≠ 0)
    (hr : r.terminating = false)
    (ht : failEngines p allEngines (failureNoted { s with inbox := rest } p r.prgIndex) = .ok t) (hw : t.waiting = []) :
    step s = .next t := by
  rw [step_pageResponse h]
  refine congrArg outcome (a₂ := .ok t) ?_
  have found : findRequest { s with inbox := rest } r.prgIndex = some r := hf
  unfold pageResponse
  rw [found]
  refine (if_neg hrc).trans ?_
  exact (responseFailed_eq hr ht).trans (drain_of_nothing hw)

theorem nodup_allEngines : allEngines.Nodup := by decide

/-- The absent contexts of the PASID are told, as the statement lists them: for a request, and away. -/
theorem failureNoted_absent (s : State) (rest : List Input) (p : BitVec 20) (prg : Nat) :
    (∀ q ∈ s.outstanding, q.pasid = p → q.terminating = false → isResident s q.contextID = false →
      (failureNoted { s with inbox := rest } p prg).told p q.contextID) ∧
    ∀ x ∈ s.awayContexts, x.pasid = p → isResident s x.contextID = false →
      (failureNoted { s with inbox := rest } p prg).told p x.contextID := by
  refine ⟨fun q hq hp ht hr => ?_, fun x hx hp hr => ?_⟩
  · exact failureNoted_told prg (mem_absentContexts_of_request hq hp ht hr)
  · obtain ⟨g, hg⟩ := mem_absentContexts_of_away
      (s := { s with inbox := rest, pci := { s.pci with rf := true } }) hx hp hr
    exact failureNoted_told prg hg

/-! ### A failing response meets one engine -/

theorem failureMet_eq (s : State) (e : Engine) (c : Ctx) (p : BitVec 20) : failureMet s e c p =
    { contextFailed s e c p with
      engines := (failureMet s e c p).engines
      missBlocked := (failureMet s e c p).missBlocked
      returns := (failureMet s e c p).returns
      hdcResponses := (failureMet s e c p).hdcResponses
      out := (failureMet s e c p).out
      freeCount := (failureMet s e c p).freeCount } := by
  unfold failureMet
  rw [completeAll_eq, returnFromHalt_eq]

theorem failureMet_eng (s : State) (e : Engine) (c : Ctx) (p : BitVec 20) (g : Engine) :
    (failureMet s e c p).eng g = (returnFromHalt (contextFailed s e c p) e).eng g := by
  unfold failureMet
  rw [completeAll_eq]
  rfl

theorem failureMet_missBlocked (s : State) (e : Engine) (c : Ctx) (p : BitVec 20) :
    (failureMet s e c p).missBlocked = (returnFromHalt (contextFailed s e c p) e).missBlocked := by
  unfold failureMet
  rw [completeAll_eq]

theorem contextFailed_eng (s : State) (e : Engine) (c : Ctx) (p : BitVec 20) :
    (contextFailed s e c p).eng e = { s.eng e with ctx := some { c with bad := true } } := PerEngine.get_set_same _ _ _

theorem failureMet_eng_other {s : State} {e g : Engine} (c : Ctx) (p : BitVec 20) (h : g ≠ e) :
    (failureMet s e c p).eng g = s.eng g := by
  rw [failureMet_eng, returnFromHalt_eng_other h]
  exact PerEngine.get_set_other _ _ (Ne.symm h)

/-- The context is marked bad; nothing else of its engine changes but the run state. -/
theorem failureMet_eng_same (s : State) (e : Engine) (c : Ctx) (p : BitVec 20) : (failureMet s e c p).eng e =
    { s.eng e with ctx := some { c with bad := true }, run := ((failureMet s e c p).eng e).run } := by
  rw [failureMet_eng, returnFromHalt_eng, contextFailed_eng]

/-- No fact is new. -/
theorem failureMet_facts (s : State) (e : Engine) (c : Ctx) (p : BitVec 20) (g : Engine) :
    ((failureMet s e c p).eng g).facts = (s.eng g).facts := by
  by_cases h : g = e
  · rw [h, failureMet_eng_same]
  · rw [failureMet_eng_other c p h]

/-- A halted engine runs again, and the miss pipeline that its fault blocks opens (R1336). -/
theorem failureMet_halted {s : State} {e : Engine} {f : PageFault} (c : Ctx) (p : BitVec 20)
    (h : (s.eng e).run = .halted f) :
    ((failureMet s e c p).eng e).run = .running ∧ (failureMet s e c p).missBlocked ≠ some e := by
  have halted : ((contextFailed s e c p).eng e).run = .halted f := by
    rw [contextFailed_eng]
    exact h
  rw [failureMet_eng, failureMet_missBlocked, returnFromHalt_halted halted, unblock_eq]
  refine ⟨congrArg EngineState.run (State.eng_setEng_same _ e _), fun k => ?_⟩
  dsimp only at k
  split at k
  · cases k
  · contradiction

theorem failureMet_notHalted {s : State} {e : Engine} (c : Ctx) (p : BitVec 20) (h : ∀ f, (s.eng e).run ≠ .halted f) :
    ((failureMet s e c p).eng e).run = (s.eng e).run ∧ (failureMet s e c p).missBlocked = s.missBlocked := by
  have notHalted : ∀ f, ((contextFailed s e c p).eng e).run ≠ .halted f := by
    rw [contextFailed_eng]
    exact h
  rw [failureMet_eng, failureMet_missBlocked, returnFromHalt_other notHalted, contextFailed_eng]
  exact ⟨rfl, rfl⟩

/-- A pipeline that another engine's fault blocks stays blocked. -/
theorem failureMet_missBlocked_other {s : State} {e : Engine} (c : Ctx) (p : BitVec 20) (h : s.missBlocked ≠ some e) :
    (failureMet s e c p).missBlocked = s.missBlocked := by
  rw [failureMet_missBlocked]
  exact returnFromHalt_missBlocked (s := contextFailed s e c p) h

theorem failureMet_told {s : State} {p : BitVec 20} {k : BitVec 32} (h : s.told p k) (e : Engine) (c : Ctx) :
    (failureMet s e c p).told p k := by
  rw [failureMet_eq]
  exact h.mono (List.Subset.refl _) (subset_rememberFailed s _) (List.subset_append_left _ _)

theorem failureMet_failed (s : State) (e : Engine) (c : Ctx) (p : BitVec 20) :
    c.contextID ∈ (failureMet s e c p).failedContexts ∧
      .contextError e p c.contextID .responseFailure ∈ (failureMet s e c p).events.scheduler := by
  rw [failureMet_eq]
  exact ⟨mem_rememberFailed s _, List.mem_append_right _ List.mem_cons_self⟩

theorem failureMet_returns (s : State) (e : Engine) (c : Ctx) (p : BitVec 20) :
    s.returns ⊆ (failureMet s e c p).returns := by
  have same : (returnFromHalt (contextFailed s e c p) e).returns = s.returns := by
    rw [returnFromHalt_eq]
    rfl
  exact same ▸ completeAll_returns _ _

/-- Each access of the engine that waited goes back as an invalid one. -/
theorem failureMet_access {s : State} {e : Engine} {w : Waiter} {a : MemAccess} (c : Ctx) (p : BitVec 20)
    (hw : w ∈ s.waiting) (ho : w.isOf e = true) (ha : w.req = .access a) :
    ∃ x ∈ (failureMet s e c p).returns, a.returnedInvalid x :=
  completeAll_access (List.mem_filter.2 ⟨hw, ho⟩) ha

end Sys2Proof.Machine
end

section
/-! PROOFS. The statement about page responses. -/
namespace Sys2Proof.Machine

/-- The write of the control register, as the statement has it. -/
theorem step_prsControl {s : State} {rest : List Input} {w : Nat}
    (h : s.inbox = .cfgWrite (s.par.prsCapOfs + 4) 2 w :: rest) (h4 : s.par.prsCapOfs % 4 = 0)
    (hp : s.par.pasidCapOfs ≠ s.par.prsCapOfs) (ha : s.par.atsCapOfs ≠ s.par.prsCapOfs) :
    step s = .next { s with inbox := rest, pci := s.pci.writePre (w % 2 == 1) } := by
  rw [step_input h (by simp)]
  exact congrArg outcome (cfgWriteBytes_prsControl (s := { s with inbox := rest }) h4 hp ha w)

theorem step_unmatchedResponse {s : State} {rest : List Input} {p : BitVec 20} {i : Nat} {rc : BitVec 4}
    (h : s.inbox = .pageResponse p i rc :: rest) (hf : findRequest s i = none) :
    step s = .next { s with inbox := rest, pci := { s.pci with upgri := true } } := by
  have found : findRequest { s with inbox := rest } i = none := hf
  rw [step_pageResponse h, pageResponse, found]
  rfl

/-- What neither noting a failure nor meeting an engine changes, and what RF is then. -/
theorem failureMet_noted (s : State) (p : BitVec 20) (i : Nat) (e : Engine) (c : Ctx) :
    let t := failureMet (failureNoted s p i) e c p
    t.inbox = s.inbox ∧ t.mem = s.mem ∧ t.pci = { s.pci with rf := true } ∧
      t.waiting = s.waiting.filter (fun w => !w.isOf e) ∧ t.outstanding = (failureNoted s p i).outstanding := by
  intro t
  rw [show t = _ from failureMet_eq _ e c p, failureNoted_eq]
  exact ⟨rfl, rfl, rfl, rfl, rfl⟩

theorem filter_isOf_eq_nil {ws : List Waiter} {e : Engine} (h : ∀ w ∈ ws, w.isOf e = true) :
    ws.filter (fun w => !w.isOf e) = [] := by
  rw [List.filter_eq_nil_iff]
  intro w hw
  simp [h w hw]

/-- What is noted, with the context of the PASID met on its engine. -/
theorem step_failureMet {s : State} {rest : List Input} {p : BitVec 20} {r : PageRequest} {rc : BitVec 4} {e : Engine}
    {c : Ctx} (h : s.inbox = .pageResponse p r.prgIndex rc :: rest) (hf : findRequest s r.prgIndex = some r)
    (hrc : rc ≠ 0) (hr : r.terminating = false) (hc : (s.eng e).ctx = some c) (hp : (s.eng e).inPasid p = true)
    (ho : ∀ g, g ≠ e → (s.eng g).inPasid p = false) (hw : ∀ w ∈ s.waiting, w.isOf e = true ∧ w.table = none) :
    step s = .next (failureMet (failureNoted { s with inbox := rest } p r.prgIndex) e c p) := by
  have others : ∀ g, g ≠ e → ((failureNoted { s with inbox := rest } p r.prgIndex).eng g).inPasid p = false :=
    fun g hg => (failureNoted_inPasid _ p _ g p).trans (ho g hg)
  have met := failEngine_resident (s := failureNoted { s with inbox := rest } p r.prgIndex)
    ((failureNoted_ctx _ p _ e).trans hc) ((failureNoted_inPasid _ p _ e p).trans hp)
    (fun w hm => (hw w ((failureNoted_waiting { s with inbox := rest } p r.prgIndex) ▸ hm)).2)
  refine step_failingResponse h hf hrc hr
    (failEngines_single nodup_allEngines (mem_allEngines e) others met (fun g hg => ?_)) ?_
  · rw [failureMet_eng_other c p hg]
    exact others g hg
  · obtain ⟨-, -, -, left, -⟩ := failureMet_noted { s with inbox := rest } p r.prgIndex e c
    exact left.trans (filter_isOf_eq_nil (fun w hm => (hw w hm).1))

/-- Settles O58: a failing response is noted (`failureNoted`) and then meets the one engine, if any, on which a context
of its PASID is resident (`failureMet`). -/
theorem pageRequestStatusAndResponses : Obligations.PageRequestStatusAndResponses := by
  intro s rest
  refine ⟨fun w h h4 hp ha => ?_, fun p i rc h hf => step_unmatchedResponse h hf, ?_⟩
  · intro on off
    have off_eq : off = (s.pci.pre && !(w % 2 == 1)) := by
      show (s.pci.pre && w % 2 == 0) = _
      congr 1
      obtain k | k := Nat.mod_two_eq_zero_or_one w <;> rw [k] <;> rfl
    rw [step_prsControl h h4 hp ha, PciCaps.writePre_eq, off_eq]
  intro r p rc h hf hrc hr gone told absent
  have noted := failureNoted_absent s rest p r.prgIndex
  have requests := failureNoted_outstanding { s with inbox := rest } p r.prgIndex
  have facts {q : PageRequest} := failureNoted_facts (s := { s with inbox := rest }) (p := p) (prg := r.prgIndex) (q := q)
  refine ⟨fun hw hn => ?_, fun e c hc hp ho hw => ?_⟩
  · have met : failEngines p allEngines (failureNoted { s with inbox := rest } p r.prgIndex) = .ok _ :=
      failEngines_others (fun e _ => (failureNoted_inPasid _ p _ e p).trans (hn e))
    exact ⟨_, step_failingResponse h hf hrc hr met ((failureNoted_waiting _ p _).trans hw), failureNoted_eq _ _ _,
      failureNoted_eng _ _ _, ⟨requests, fun g q hq hg => facts hq hg g⟩, noted⟩
  · obtain ⟨inbox, mem, pci, left, same⟩ := failureMet_noted { s with inbox := rest } p r.prgIndex e c
    obtain ⟨failed, event⟩ := failureMet_failed (failureNoted { s with inbox := rest } p r.prgIndex) e c p
    have run := failureNoted_run { s with inbox := rest } p r.prgIndex e
    have blocked := failureNoted_missBlocked { s with inbox := rest } p r.prgIndex
    have waiting := failureNoted_waiting { s with inbox := rest } p r.prgIndex
    have returns := failureMet_returns (failureNoted { s with inbox := rest } p r.prgIndex) e c p
    rw [failureNoted_returns] at returns
    refine ⟨_, step_failureMet h hf hrc hr hc hp ho hw, ⟨same.trans requests, fun g q hq hg tlb k fe => ?_⟩,
      ⟨fun q hq hp ht hr => failureMet_told (noted.1 q hq hp ht hr) e c,
        fun x hx hp hr => failureMet_told (noted.2 x hx hp hr) e c⟩, inbox, mem,
      left.trans (filter_isOf_eq_nil (fun w hm => (hw w hm).1)), pci, ?_, failed, event,
      fun f hrun => failureMet_halted c p (run.trans hrun), fun hrun => ?_, fun hb => ?_, fun g hg => ?_,
      fun x hx => returns hx, fun w a hm ha => ?_⟩
    · rw [failureMet_facts]
      exact facts hq hg g tlb k fe
    · rw [failureMet_eng_same]
    · obtain ⟨runs, blocks⟩ := failureMet_notHalted c p (fun f => run ▸ hrun f)
      exact ⟨runs.trans run, blocks.trans blocked⟩
    · exact (failureMet_missBlocked_other c p (fun k => hb (blocked.symm.trans k))).trans blocked
    · rw [failureMet_eng_other c p hg]
      exact ⟨failureNoted_ctx _ p _ g, failureNoted_run _ p _ g⟩
    · exact failureMet_access c p ((congrArg (w ∈ ·) waiting).mpr hm) (hw w hm).1 ha

end Sys2Proof.Machine
end

section
/-! PROOFS. The statement about the canonical form of memory. -/
namespace Sys2Proof.Machine

/-- Settles O5: the memory part of the three invariants that every step keeps. Memory changes only through
`Memory.write`, which keeps the canonical form (`Memory.write_wf`). -/
theorem everyStepKeepsMemoryCanonical : Obligations.EveryStepKeepsMemoryCanonical :=
  fun _ _ canonical next => (step_invariants next).mem canonical

end Sys2Proof.Machine
end

section
/-! PROOFS. The record of a well-formed operation decodes to the operation: one rule for the rows of the families 1 to
11, one for the atomics of the bare page, and the operations sorted by the codec of their operands. -/
namespace Sys2Proof

open Machine

/-- A record of a row reads back as the row's operation on the operands laid out. -/
theorem decode_record_row {α : Type} {c : Codec α} {n : Nat} {f k : Byte} {mk : α → Instr} {a : α} {i : Instr}
    (hc : c.Lawful n) (member : ∀ p, decodeMember f.toNat k.toNat p = row c mk p) (hi : mk a = i) (hw : i.WellFormed)
    (hn : n ≤ 62 := by decide) : decode (record f k (c.enc a)) = .ok i := by
  subst hi
  rw [decode_record ((hc.size a).trans hn), member, row_enc hc mk a _ hw]

theorem decodeBare_atomic {b : Byte} (hb : b.toNat / 16 = 12) (rest : List Byte) :
    decodeBare (b :: rest) = row (.bv 64 8) (atomicRow (b.toNat % 16)) rest := if_pos hb

theorem atomicRow_wellFormed (k : Nat) (addr : BitVec 64) : (atomicRow k addr).WellFormed := by
  fun_cases atomicRow k addr <;> rfl

/-- A record of an opcode `1100_kkkk` and an address reads back as the atomic `kkkk` (R334). -/
theorem decode_record_atomic {b : Byte} (hb : b.toNat / 16 = 12) (addr : BitVec 64) :
    decode (record 0 0 (b :: (Codec.bv 64 8).enc addr)) = .ok (atomicRow (b.toNat % 16) addr) := by
  have lawful : (Codec.bv 64 8).Lawful 8 := Codec.bv_lawful (by decide)
  have size := lawful.size addr
  rw [decode_record (by rw [List.length_cons]; omega), List.cons_append]
  exact (decodeBare_atomic hb _).trans (row_enc lawful _ addr _ (atomicRow_wellFormed _ addr))

/-- Settles O1, by the operations: those whose operands one codec lays out read back by the law of that codec. -/
theorem decodeReadsBackEveryOperation : Obligations.DecodeReadsBackEveryOperation := by
  intro i h
  cases i with
  | tileLinear | tileX | tileY | tileW | bufTyped | bufStructured =>
    exact decode_record_row kTile_lawful (fun _ => rfl) rfl h
  | tileFence => exact decode_record_row kFence_lawful (fun _ => rfl) rfl h
  | tileYs64 | tileYs16 | tileYs8 | tileYf64 | tileYf16 | tileYf8 =>
    exact decode_record_row kXY_lawful (fun _ => rfl) rfl h
  | tileYsMsaa2_64 | tileYsMsaa2_16 | tileYsMsaa2_8 | tileYsMsaa4_64 | tileYsMsaa4_16 | tileYsMsaa4_8
  | tileYsMsaa8_64 | tileYsMsaa8_16 | tileYsMsaa8_8 | tileYsMsaa16_64 | tileYsMsaa16_16 | tileYsMsaa16_8 =>
    exact decode_record_row kXYS_lawful (fun _ => rfl) rfl h
  | trttWalk | aUpdate000 | aUpdate001 | aUpdate010 | aUpdate011 | aUpdate100 | adUpdate101 | adUpdate110
  | adUpdate111 =>
    exact decode_record_row (n := 8) (Codec.bv_lawful (by decide)) (fun _ => rfl) rfl h
  | ggttWalk => exact decode_record_row kGgtt_lawful (fun _ => rfl) rfl h
  | ppgtt32Walk | ppgtt48Walk | ia32eWalk => exact decode_record_row kWalk_lawful (fun _ => rfl) rfl h
  | tlbInvalidate => exact decode_record_row kInv_lawful (fun _ => rfl) rfl h
  | hdcPageReq => exact decode_record_row cPageReq_lawful (fun _ => rfl) rfl h
  | hdcPageResp => exact decode_record_row cPageResp_lawful (fun _ => rfl) rfl h
  | hdcTlbInv => exact decode_record_row cTlbInv_lawful (fun _ => rfl) rfl h
  | pageUpdate0000 a | pageUpdate0001 a | pageUpdate0010 a | pageUpdate0011 a | pageUpdate0100 a | pageUpdate0101 a
  | pageUpdate0110 a | pageUpdate0111 a | pageUpdate1000 a | pageUpdate1001 a | pageUpdate1010 a | pageUpdate1011 a
  | pageUpdate1100 a | pageUpdate1101 a | pageUpdate1110 a | pageUpdate1111 a =>
    exact decode_record_atomic rfl a
  | fmtR1 => exact decode_record_row kR1_lawful (fun _ => rfl) rfl h
  | fmtP4A4 | fmtA4P4 | fmtP8 => exact decode_record_row (n := 1) (Codec.bv_lawful (by decide)) (fun _ => rfl) rfl h
  | fmtP8A8 | fmtA8P8 => exact decode_record_row (n := 2) (Codec.bv_lawful (by decide)) (fun _ => rfl) rfl h
  | fmtP2 => exact decode_record_row kP2_lawful (fun _ => rfl) rfl h
  | fmtYuv422 => exact decode_record_row kYuv_lawful (fun _ => rfl) rfl h
  | etc1 | eacR8 => exact decode_record_row kB64_lawful (fun _ => rfl) rfl h
  | etc2 | eacR11 | etc2Pta | dxt1 | dxt1Rgb | bc4 => exact decode_record_row kB64F_lawful (fun _ => rfl) rfl h
  | dxt3 | dxt5 => exact decode_record_row kB128_lawful (fun _ => rfl) rfl h
  | etc2EacRgba8 | eacRg11 | bc5 | bc6h | bc6hMode0 | bc6hMode1 | bc6hMode2 | bc6hMode3 | bc6hMode4 | bc6hMode5
  | bc6hMode6 | bc6hMode7 | bc6hMode8 | bc6hMode9 | bc6hMode10 | bc6hMode11 | bc6hMode12 | bc6hMode13
  | bc6hUndef10011 | bc6hUndef10111 | bc6hUndef11011 | bc6hUndef11111 | bc7 | bc7Mode0 | bc7Mode1 | bc7Mode2
  | bc7Mode3 | bc7Mode4 | bc7Mode5 | bc7Mode6 | bc7Mode7 | bc7Undef =>
    exact decode_record_row kB128F_lawful (fun _ => rfl) rfl h
  | fxt1 | fxt1Hi | fxt1Chroma | fxt1Mixed | fxt1Alpha => exact decode_record_row kFxt_lawful (fun _ => rfl) rfl h
  | astc => exact decode_record_row kAstc_lawful (fun _ => rfl) rfl h
  | astcHeader => exact decode_record_row kAstcHead_lawful (fun _ => rfl) rfl h
  | bufRaw => exact decode_record_row kRaw_lawful (fun _ => rfl) rfl h
  | surf1D => exact decode_record_row cSurf1D_lawful (fun _ => rfl) rfl h
  | surf2D | surf3D => exact decode_record_row cSurf2D_lawful (fun _ => rfl) rfl h
  | mcsDecode => exact decode_record_row kMcs_lawful (fun _ => rfl) rfl h
  | surfQuilt => exact decode_record_row kQuilt_lawful (fun _ => rfl) rfl h
  | surfCube => exact decode_record_row kCube_lawful (fun _ => rfl) rfl h
  | surfPad => exact decode_record_row cSurfPad_lawful (fun _ => rfl) rfl h

end Sys2Proof
end

section
/-! PROOFS. The decoder never answers an ill-formed operation: whatever it answers, a row has read and checked. -/
namespace Sys2Proof

open Machine

/-- An operation among the answers is well-formed. -/
def AnswersWellFormed (r : Except DecodeError Instr) : Prop := ∀ i, r = .ok i → i.WellFormed

@[simp] theorem answersWellFormed_error (e : DecodeError) : AnswersWellFormed (.error e) := fun _ h =>
  absurd h (by simp)

@[simp] theorem answersWellFormed_row {α : Type} (c : Codec α) (mk : α → Instr) (p : List Byte) :
    AnswersWellFormed (row c mk p) := fun _ => row_ok

/-- Every member of every family is a row, and every other number an error. -/
theorem answersWellFormed_decodeMember (f k : Nat) (p : List Byte) : AnswersWellFormed (decodeMember f k p) := by
  fun_cases decodeMember f k p
  · fun_cases decodeBare p <;> simp
  · exact answersWellFormed_error _
  · fun_cases decodeTiling k p <;> simp
  · fun_cases decodeWalk k p <;> simp
  · fun_cases decodeUpdate k p <;> simp
  · fun_cases decodeFormat k p <;> simp
  · fun_cases decodeEtc k p <;> simp
  · fun_cases decodeFxt1 k p <;> simp
  · fun_cases decodeDxt k p <;> simp
  · fun_cases decodeBc6h k p <;> simp
  · fun_cases decodeBc7 k p <;> simp
  · fun_cases decodeAstc k p <;> simp
  · fun_cases decodeLayout k p <;> simp
  · exact answersWellFormed_error _

/-- 64 bytes are read as a member of a family, and in no other way. -/
theorem answersWellFormed_decode (bs : List Byte) : AnswersWellFormed (decode bs) := by
  unfold decode
  split
  · exact answersWellFormed_decodeMember _ _ _
  · exact answersWellFormed_error _

/-- Settles O2: whatever the decoder answers has passed the check of a row. -/
theorem decodeAnswersOnlyWellFormed : Obligations.DecodeAnswersOnlyWellFormed :=
  fun bs => answersWellFormed_decode bs

end Sys2Proof
end

section
/-! PROOFS. The register frame of every operation, from what every operation keeps (`exec_keeps`). -/
namespace Sys2Proof.Machine

/-- A field that `State.core` does not blank is kept. -/
theorem Keeps.of_core {α : Type} {s t : State} (h : Keeps s t) (field : State → α)
    (kept : ∀ u : State, field u.core = field u) : field t = field s := by
  rw [← kept t, h.core, kept s]

/-- Settles O10: an operation that answers keeps the registers and the identity of every context (`exec_keeps`). -/
theorem noOperationChangesARegister : Obligations.NoOperationChangesARegister := by
  intro i s t next
  have k : Keeps s t := exec_keeps next
  refine ⟨⟨k.trtt, k.trttSaved, k.mocsSaved, k.l3Saved, k.of_core State.failedContexts fun _ => rfl, k.mchbar,
    k.badContexts, k.awayContexts, k.of_core State.reg4DFC fun _ => rfl, k.of_core State.reg404C fun _ => rfl,
    k.of_core State.reg4A30 fun _ => rfl, k.of_core State.adNonWB fun _ => rfl, k.of_core State.reg40E0 fun _ => rfl,
    k.of_core State.reg40E4 fun _ => rfl, k.of_core State.reg40E8 fun _ => rfl, k.of_core State.reg40EC fun _ => rfl,
    k.l3Control, k.gamt, k.fences, k.pci, k.palette, k.par, k.of_core State.iommu fun _ => rfl, k.pasidState,
    k.of_core State.hostData fun _ => rfl, k.inbox⟩, fun e => ?_⟩
  exact ⟨(k.eng e).desc, (k.eng e).pend, (k.eng e).ctx⟩

end Sys2Proof.Machine
end

section
/-! SUPPORT. The bit lists of the tile functions (R426): which bit of the operands each bit of the result is, what a run of
consecutive bits makes, and that a list with every bit of a tile's positions determines the position. -/
namespace Sys2Proof.Machine

/-! ### The bits of a result -/

/-- Whether a bit of an operand is 1. -/
def TileBit.isSet (b : TileBit) (x y s : Nat) : Bool :=
  match b with
  | .x n => x.testBit n
  | .y n => y.testBit n
  | .s n => s.testBit n

theorem nbit_eq_toNat_testBit (n i : Nat) : nbit n i = (n.testBit i).toNat := by
  rw [Nat.toNat_testBit, nbit, Nat.shiftRight_eq_div_pow]

theorem TileBit.val_eq_toNat_isSet (b : TileBit) (x y s : Nat) : b.val x y s = (b.isSet x y s).toNat := by
  cases b <;> exact nbit_eq_toNat_testBit _ _

theorem swizzle_concat (bs : List TileBit) (b : TileBit) (x y s : Nat) :
    swizzle (bs ++ [b]) x y s = 2 * swizzle bs x y s + b.val x y s := by
  simp [swizzle, List.foldl_append]

/-- The lists name the most significant bit first: bit `i` of the result is the bit `i` places from the end. -/
theorem testBit_swizzle (bs : List TileBit) (x y s i : Nat) :
    (swizzle bs x y s).testBit i = bs.reverse[i]?.any (·.isSet x y s) := by
  induction bs using List.reverseRecOn generalizing i with
  | nil => simp [swizzle]
  | append_singleton bs b ih =>
    rw [swizzle_concat, TileBit.val_eq_toNat_isSet, ← Nat.bit_val, List.reverse_concat]
    cases i with
    | zero => simp
    | succ i => simpa [Nat.testBit_bit_succ] using ih i

/-! ### Parts of a list -/

theorem swizzle_append (as bs : List TileBit) (x y s : Nat) :
    swizzle (as ++ bs) x y s = 2 ^ bs.length * swizzle as x y s + swizzle bs x y s := by
  induction bs using List.reverseRecOn with
  | nil => simp [swizzle]
  | append_singleton bs b ih =>
    rw [← List.append_assoc, swizzle_concat, swizzle_concat, ih, List.length_append, List.length_singleton]
    ring

theorem swizzle_cons (b : TileBit) (bs : List TileBit) (x y s : Nat) :
    swizzle (b :: bs) x y s = 2 ^ bs.length * b.val x y s + swizzle bs x y s := by
  simpa [swizzle] using swizzle_append [b] bs x y s

theorem swizzle_lt (bs : List TileBit) (x y s : Nat) : swizzle bs x y s < 2 ^ bs.length := by
  induction bs with
  | nil => exact Nat.one_pos
  | cons b bs ih =>
    rw [swizzle_cons, List.length_cons, Nat.pow_succ, TileBit.val_eq_toNat_isSet]
    have bit : 2 ^ bs.length * (b.isSet x y s).toNat ≤ 2 ^ bs.length * 1 := Nat.mul_le_mul_left _ (Bool.toNat_le _)
    omega

/-- `n` consecutive bits of an operand, bit `lo` the least significant. -/
def bitRun (operand : Nat → TileBit) (lo : Nat) : Nat → List TileBit
  | 0 => []
  | n + 1 => operand (lo + n) :: bitRun operand lo n

@[simp] theorem length_bitRun (operand : Nat → TileBit) (lo n : Nat) : (bitRun operand lo n).length = n := by
  induction n with
  | zero => rfl
  | succ n ih => simp [bitRun, ih]

/-- A run of bits is the field of the operand that it names. -/
theorem swizzle_bitRun {operand : Nat → TileBit} {a x y s : Nat} (h : ∀ i, (operand i).val x y s = nbit a i)
    (lo n : Nat) : swizzle (bitRun operand lo n) x y s = a / 2 ^ lo % 2 ^ n := by
  induction n with
  | zero => simp [bitRun, swizzle, Nat.mod_one]
  | succ n ih =>
    rw [bitRun, swizzle_cons, length_bitRun, ih, h, nbit, Nat.shiftRight_eq_div_pow, Nat.pow_add, ← Nat.div_div_eq_div_mul,
      Nat.mod_pow_succ, Nat.add_comm]

theorem swizzle_bitRun_x (lo n x y s : Nat) : swizzle (bitRun .x lo n) x y s = x / 2 ^ lo % 2 ^ n :=
  swizzle_bitRun (fun _ => rfl) lo n

theorem swizzle_bitRun_y (lo n x y s : Nat) : swizzle (bitRun .y lo n) x y s = y / 2 ^ lo % 2 ^ n :=
  swizzle_bitRun (fun _ => rfl) lo n

/-! ### A result determines the bits in it -/

theorem isSet_eq_of_swizzle_eq {bs : List TileBit} {x y s x' y' s' : Nat}
    (h : swizzle bs x y s = swizzle bs x' y' s') {b : TileBit} (hb : b ∈ bs) : b.isSet x y s = b.isSet x' y' s' := by
  obtain ⟨i, hi⟩ := List.mem_iff_getElem?.1 (List.mem_reverse.2 hb)
  have bit := congrArg (Nat.testBit · i) h
  simpa [testBit_swizzle, hi] using bit

/-- Numbers below `2 ^ k` with the same bits below `k`. -/
theorem eq_of_testBit_below {k a a' : Nat} (ha : a < 2 ^ k) (ha' : a' < 2 ^ k)
    (h : ∀ i < k, a.testBit i = a'.testBit i) : a = a' := by
  refine Nat.eq_of_testBit_eq fun i => ?_
  by_cases hi : i < k
  · exact h i hi
  · have le : 2 ^ k ≤ 2 ^ i := Nat.pow_le_pow_right Nat.two_pos (Nat.not_lt.1 hi)
    rw [Nat.testBit_lt_two_pow (ha.trans_le le), Nat.testBit_lt_two_pow (ha'.trans_le le)]

/-- The list names every bit of a position in a tile of `2 ^ k` columns and `2 ^ m` rows. -/
def CoversTile (bs : List TileBit) (k m : Nat) : Prop := (∀ i < k, .x i ∈ bs) ∧ ∀ i < m, .y i ∈ bs

theorem CoversTile.position_eq {bs : List TileBit} {k m x y s x' y' s' : Nat} (c : CoversTile bs k m)
    (hx : x < 2 ^ k) (hx' : x' < 2 ^ k) (hy : y < 2 ^ m) (hy' : y' < 2 ^ m)
    (h : swizzle bs x y s = swizzle bs x' y' s') : x = x' ∧ y = y' :=
  ⟨eq_of_testBit_below hx hx' fun i hi => isSet_eq_of_swizzle_eq h (c.1 i hi),
    eq_of_testBit_below hy hy' fun i hi => isSet_eq_of_swizzle_eq h (c.2 i hi)⟩

/-! ### The legacy walks -/

/-- The order of the bits inside a tile of a walk (R1232). -/
def walkBits : TileWalk → List TileBit
  | .x => tileXBits
  | .y => tileYBits
  | .w => tileWBits

theorem swizzle_tileXBits (x y s : Nat) : swizzle tileXBits x y s = 512 * (y % 8) + x % 512 := by
  have runs : tileXBits = bitRun .y 0 3 ++ bitRun .x 0 9 := rfl
  simp [runs, swizzle_append, swizzle_bitRun_x, swizzle_bitRun_y]

theorem swizzle_tileYBits (x y s : Nat) :
    swizzle tileYBits x y s = 512 * (x / 16 % 8) + 16 * (y % 32) + x % 16 := by
  have runs : tileYBits = bitRun .x 4 3 ++ (bitRun .y 0 5 ++ bitRun .x 0 4) := rfl
  simp [runs, swizzle_append, swizzle_bitRun_x, swizzle_bitRun_y, Nat.add_assoc]

theorem swizzle_tileWBits (x y s : Nat) : swizzle tileWBits x y s = 512 * (x / 8 % 8) + 64 * (y / 8 % 8) +
    32 * (y / 4 % 2) + 16 * (x / 4 % 2) + 8 * (y / 2 % 2) + 4 * (x / 2 % 2) + 2 * (y % 2) + x % 2 := by
  have runs : tileWBits = bitRun .x 3 3 ++ (bitRun .y 3 3 ++ (bitRun .y 2 1 ++ (bitRun .x 2 1 ++ (bitRun .y 1 1 ++
    (bitRun .x 1 1 ++ (bitRun .y 0 1 ++ bitRun .x 0 1)))))) := rfl
  simp [runs, swizzle_append, swizzle_bitRun_x, swizzle_bitRun_y, Nat.add_assoc]

/-- The formulas of R420 to R422 are the bit orders of R1232. -/
theorem offsetInTile_eq_swizzle {k : TileWalk} {x y : Nat} (hx : x < tileWidth k) (hy : y < tileHeight k) (s : Nat) :
    offsetInTile k x y = swizzle (walkBits k) x y s := by
  cases k with
  | x =>
    have column : x % 512 = x := Nat.mod_eq_of_lt hx
    have row : y % 8 = y := Nat.mod_eq_of_lt hy
    rw [walkBits, swizzle_tileXBits, offsetInTile, column, row]
  | y =>
    have tileColumn : x / 16 < 8 := Nat.div_lt_of_lt_mul hx
    have row : y % 32 = y := Nat.mod_eq_of_lt hy
    rw [walkBits, swizzle_tileYBits, offsetInTile, Nat.mod_eq_of_lt tileColumn, row, Nat.mul_comm y]
  | w =>
    have blockColumn : x / 8 < 8 := Nat.div_lt_of_lt_mul hx
    have blockRow : y / 8 < 8 := Nat.div_lt_of_lt_mul hy
    rw [walkBits, swizzle_tileWBits, offsetInTile, Nat.mod_eq_of_lt blockColumn, Nat.mod_eq_of_lt blockRow]

end Sys2Proof.Machine
end

section
/-! PROOFS. The legacy tile walks: where TILE.LINEAR, TILE.X, TILE.Y, TILE.W and TILE.FENCE place a byte, and that no two
bytes share a place. -/
namespace Sys2Proof.Machine

/-! ### What an address function answers -/

theorem answerOffset_of_lt {s : State} {base off : Nat} (h : off < 2 ^ 38) :
    answerOffset s base off = .next { s with out := .address (base + off) } := if_pos h

theorem answerOffset_of_le {s : State} {base off : Nat} (h : 2 ^ 38 ≤ off) :
    answerOffset s base off = .refused .offsetTooLarge := if_neg (Nat.not_lt.2 h)

theorem freeAddress_eq (s : State) : freeAddress s =
    .next { s with freeCount := s.freeCount + 8, out := .address (freeQ s).1.toNat } := by
  rw [freeAddress, freeQ_state, answer]

theorem execTile_of_misaligned {base : BitVec 64} (h : base.toNat % 4096 ≠ 0) (k : TileWalk) (pitch x y : BitVec 32)
    (s : State) : execTile k base pitch x y s = .refused .surfaceMisaligned := if_pos h

theorem execTile_of_aligned {base : BitVec 64} (h : base.toNat % 4096 = 0) (k : TileWalk) (pitch x y : BitVec 32)
    (s : State) : execTile k base pitch x y s =
      answerOffset s base.toNat (tiledOffset k pitch.toNat x.toNat y.toNat) := if_neg (not_not.2 h)

/-- Settles O13: the three tiled operations are `execTile`, which looks at the base first. -/
theorem misalignedTileBaseIsRefused : Obligations.MisalignedTileBaseIsRefused := fun s _ pitch x y misaligned =>
  ⟨execTile_of_misaligned misaligned .x pitch x y s, execTile_of_misaligned misaligned .y pitch x y s,
    execTile_of_misaligned misaligned .w pitch x y s⟩

/-- Settles O12: the printed offsets are those of `tiledOffset`. -/
theorem legacyTileAddresses : Obligations.LegacyTileAddresses := by
  intro s base pitch x y lin ox oy ow hlin hox hoy how
  replace hox : ox = tiledOffset .x pitch.toNat x.toNat y.toNat := hox
  replace hoy : oy = tiledOffset .y pitch.toNat x.toNat y.toNat := hoy
  replace how : ow = tiledOffset .w pitch.toNat x.toNat y.toNat := how
  subst hlin hox hoy how
  refine ⟨answerOffset_of_lt, answerOffset_of_le, fun aligned => ?_⟩
  have walk (k : TileWalk) := execTile_of_aligned aligned k pitch x y s
  exact ⟨fun _ h => (walk .x).trans (answerOffset_of_lt h), fun _ h => (walk .x).trans (answerOffset_of_le h),
    fun _ h => (walk .y).trans (answerOffset_of_lt h), fun _ h => (walk .y).trans (answerOffset_of_le h),
    fun _ h => (walk .w).trans (answerOffset_of_lt h), fun _ h => (walk .w).trans (answerOffset_of_le h)⟩

/-! ### The fence -/

theorem tileWidth_pos (k : TileWalk) : 0 < tileWidth k := by cases k <;> decide

theorem tileHeight_pos (k : TileWalk) : 0 < tileHeight k := by cases k <;> decide

/-- A column inside the pitch lies in one of the `pitch` tiles of a row of tiles. -/
theorem tileColumn_lt {k : TileWalk} {pitch x : Nat} (h : x < pitch * tileWidth k) : x / tileWidth k < pitch :=
  Nat.div_lt_of_lt_mul (by rwa [Nat.mul_comm])

/-- R423 recovers row and column from the distance to the fence's base: divided by the tile width it is
`y * pitch + x / width`, whose quotient and remainder by the pitch are the row and the tile of the column. -/
theorem fencedAddress_of_position (k : TileWalk) {base pitch x y : Nat} (hx : x < pitch * tileWidth k) :
    fencedAddress k base pitch (base + y * (pitch * tileWidth k) + x) = base + tiledOffset k pitch x y := by
  have tile := tileColumn_lt hx
  have pitch_pos : 0 < pitch := Nat.zero_lt_of_lt tile
  have distance : base + y * (pitch * tileWidth k) + x - base = x + tileWidth k * (pitch * y) := by
    rw [Nat.add_assoc, Nat.add_sub_cancel_left]
    ring
  have quotient : (x + tileWidth k * (pitch * y)) / tileWidth k = x / tileWidth k + pitch * y :=
    Nat.add_mul_div_left _ _ (tileWidth_pos k)
  have row : (x / tileWidth k + pitch * y) / pitch = y := by
    rw [Nat.add_mul_div_left _ _ pitch_pos, Nat.div_eq_of_lt tile, Nat.zero_add]
  have column : (x / tileWidth k + pitch * y) % pitch = x / tileWidth k := by
    rw [Nat.add_mul_mod_self_left, Nat.mod_eq_of_lt tile]
  rw [fencedAddress, distance, quotient, row, column, Nat.add_mul_mod_self_left, Nat.mul_comm, Nat.div_add_mod]

/-- Settles O14: inside a fence with a pitch the formula is the walk's (`fencedAddress_of_position`); elsewhere the
answer is a free value. -/
theorem fencedAddressIsTheTiledPosition : Obligations.FencedAddressIsTheTiledPosition := by
  refine fun s linear base pitch walk => ⟨fun x y hx hlinear => ?_, fun outside => ?_⟩
  · have fenced : base.toNat ≤ linear.toNat ∧ pitch ≠ 0 := by
      refine ⟨by omega, ?_⟩
      rintro rfl
      simp at hx
    calc exec (.tileFence linear base pitch walk) s
        = answer s (.address (fencedAddress walk base.toNat pitch.toNat linear.toNat)) := if_pos fenced
      _ = answer s (.address (base.toNat + tiledOffset walk pitch.toNat x y)) := by
        rw [hlinear, fencedAddress_of_position walk hx]
  · have unfenced : ¬ (base.toNat ≤ linear.toNat ∧ pitch ≠ 0) := fun ⟨below, pitched⟩ =>
      outside.elim (Nat.not_lt.2 below) pitched
    exact ⟨_, (if_neg unfenced).trans (freeAddress_eq s)⟩

/-! ### Tiling moves every byte to a place of its own -/

/-- Quotient and remainder are determined by the number that they make. -/
theorem mul_add_inj {b q q' r r' : Nat} (hr : r < b) (hr' : r' < b) (h : b * q + r = b * q' + r') : q = q' ∧ r = r' := by
  have quotient {q r : Nat} (hr : r < b) : (b * q + r) / b = q := by
    rw [Nat.mul_add_div (by omega), Nat.div_eq_of_lt hr, Nat.add_zero]
  have same : q = q' := by rw [← quotient (q := q) hr, h, quotient hr']
  subst same
  exact ⟨rfl, Nat.add_left_cancel h⟩

/-- A tile has 4 KB. -/
theorem offsetInTile_lt {k : TileWalk} {x y : Nat} (hx : x < tileWidth k) (hy : y < tileHeight k) :
    offsetInTile k x y < 4096 := by
  have bits : (walkBits k).length = 12 := by cases k <;> rfl
  rw [offsetInTile_eq_swizzle hx hy 0]
  calc swizzle (walkBits k) x y 0 < 2 ^ (walkBits k).length := swizzle_lt _ x y 0
    _ = 4096 := by simp [bits]

/-- Inside a tile the offset determines the position. -/
theorem offsetInTile_inj {k : TileWalk} {x y x' y' : Nat} (hx : x < tileWidth k) (hy : y < tileHeight k)
    (hx' : x' < tileWidth k) (hy' : y' < tileHeight k) (h : offsetInTile k x y = offsetInTile k x' y') :
    x = x' ∧ y = y' := by
  rw [offsetInTile_eq_swizzle hx hy 0, offsetInTile_eq_swizzle hx' hy' 0] at h
  cases k with
  | x => exact CoversTile.position_eq (k := 9) (m := 3) ⟨by decide, by decide⟩ hx hx' hy hy' h
  | y => exact CoversTile.position_eq (k := 7) (m := 5) ⟨by decide, by decide⟩ hx hx' hy hy' h
  | w => exact CoversTile.position_eq (k := 6) (m := 6) ⟨by decide, by decide⟩ hx hx' hy hy' h

/-- The offset is that of the tile, 4 KB for each tile before it, and the offset inside. -/
theorem tiledOffset_eq (k : TileWalk) (pitch x y : Nat) : tiledOffset k pitch x y =
    4096 * (pitch * (y / tileHeight k) + x / tileWidth k)
      + offsetInTile k (x % tileWidth k) (y % tileHeight k) := by
  rw [tiledOffset]
  ring

/-- Settles O15: an offset determines tile and offset inside, the tile its row and column of tiles, the offset inside
the position there. -/
theorem tiledBytesNeverShareAnAddress : Obligations.TiledBytesNeverShareAnAddress := by
  intro k pitch x y x' y' hx hx' h
  have inside (x y : Nat) : x % tileWidth k < tileWidth k ∧ y % tileHeight k < tileHeight k :=
    ⟨Nat.mod_lt _ (tileWidth_pos k), Nat.mod_lt _ (tileHeight_pos k)⟩
  obtain ⟨hcol, hrow⟩ := inside x y
  obtain ⟨hcol', hrow'⟩ := inside x' y'
  rw [tiledOffset_eq, tiledOffset_eq] at h
  obtain ⟨sameTile, sameOffset⟩ := mul_add_inj (offsetInTile_lt hcol hrow) (offsetInTile_lt hcol' hrow') h
  obtain ⟨tileRow, tileCol⟩ := mul_add_inj (tileColumn_lt hx) (tileColumn_lt hx') sameTile
  obtain ⟨col, row⟩ := offsetInTile_inj hcol hrow hcol' hrow' sameOffset
  exact ⟨by rw [← Nat.div_add_mod x (tileWidth k), tileCol, col, Nat.div_add_mod],
    by rw [← Nat.div_add_mod y (tileHeight k), tileRow, row, Nat.div_add_mod]⟩

end Sys2Proof.Machine
end

section
/-! PROOFS. TileYS and TileYF: the offsets are the printed mask-and-shift expressions, and inside a tile two positions
never have the same offset. -/
namespace Sys2Proof.Machine

/-! ### Mask-and-shift expressions -/

/-- What an operand masked and then shifted left by `k` shows at position `i`: its bit `i - k` where the mask has it. -/
def maskedBit (operand : Nat → TileBit) (mask : BitVec 16) (k i : Nat) : List TileBit :=
  if k ≤ i ∧ mask.getLsbD (i - k) then [operand (i - k)] else []

/-- The expressions that the spec prints (R427 to R444), each with the operand bits that it shows at a position: OR of
masked operands, all shifted left but the lowest bits of `x`. -/
inductive SwizzleExpr (x y n : BitVec 16) : BitVec 16 → (Nat → List TileBit) → Prop where
  | x (mask : BitVec 16) (k : Nat) : SwizzleExpr x y n ((x &&& mask) <<< k) (maskedBit .x mask k)
  | xLow (mask : BitVec 16) : SwizzleExpr x y n (x &&& mask) (maskedBit .x mask 0)
  | y (mask : BitVec 16) (k : Nat) : SwizzleExpr x y n ((y &&& mask) <<< k) (maskedBit .y mask k)
  | sample (mask : BitVec 16) (k : Nat) : SwizzleExpr x y n ((n &&& mask) <<< k) (maskedBit .s mask k)
  | or {v w : BitVec 16} {f g : Nat → List TileBit} :
    SwizzleExpr x y n v f → SwizzleExpr x y n w g → SwizzleExpr x y n (v ||| w) (fun i => f i ++ g i)

theorem getLsbD_mask_shift {operand : Nat → TileBit} {a : BitVec 16} {x y s : Nat}
    (h : ∀ j, (operand j).isSet x y s = a.getLsbD j) (mask : BitVec 16) (k : Nat) {i : Nat} (hi : i < 16) :
    ((a &&& mask) <<< k).getLsbD i = (maskedBit operand mask k i).any (·.isSet x y s) := by
  rw [BitVec.getLsbD_shiftLeft, BitVec.getLsbD_and, maskedBit]
  by_cases hk : i < k
  · simp [hk, Nat.not_le.2 hk]
  · cases mask.getLsbD (i - k) <;> simp [hi, hk, Nat.not_lt.1 hk, h]

/-- A bit of an expression is 1 if one of the operand bits that it shows there is. -/
theorem SwizzleExpr.getLsbD_eq {x y n v : BitVec 16} {f : Nat → List TileBit} (h : SwizzleExpr x y n v f) {i : Nat}
    (hi : i < 16) : v.getLsbD i = (f i).any (·.isSet x.toNat y.toNat n.toNat) := by
  induction h with
  | x mask k => exact getLsbD_mask_shift (operand := .x) (fun _ => BitVec.testBit_toNat x) mask k hi
  | xLow mask =>
    rw [← getLsbD_mask_shift (operand := .x) (fun _ => BitVec.testBit_toNat x) mask 0 hi, BitVec.shiftLeft_zero]
  | y mask k => exact getLsbD_mask_shift (operand := .y) (fun _ => BitVec.testBit_toNat y) mask k hi
  | sample mask k => exact getLsbD_mask_shift (operand := .s) (fun _ => BitVec.testBit_toNat n) mask k hi
  | or _ _ hv hw => rw [BitVec.getLsbD_or, hv, hw, List.any_append]

/-- An expression that shows at each position the bit of the list, and nothing above it, is the result of the list. -/
theorem SwizzleExpr.eq_swizzle {x y n v : BitVec 16} {f : Nat → List TileBit} {bs : List TileBit}
    (h : SwizzleExpr x y n v f) (same : ∀ i < 16, f i = bs.reverse[i]?.toList) :
    BitVec.ofNat 16 (swizzle bs x.toNat y.toNat n.toNat) = v := by
  refine BitVec.eq_of_getLsbD_eq fun i hi => ?_
  rw [BitVec.getLsbD_ofNat, testBit_swizzle, h.getLsbD_eq hi, same i hi]
  cases bs.reverse[i]? <;> simp [hi]

/-- An operation that answers the result of a list answers an expression with the bits of the list. -/
theorem SwizzleExpr.answers {x y n v : BitVec 16} {f : Nat → List TileBit} {bs : List TileBit} {i : Instr} {s : State}
    (h : SwizzleExpr x y n v f) (meaning : exec i s =
      answer s (.offset (BitVec.ofNat 16 (swizzle bs x.toNat y.toNat n.toNat))))
    (same : ∀ i < 16, f i = bs.reverse[i]?.toList) : Answers i s (.offset v) := by
  rw [Answers, meaning, h.eq_swizzle same, answer]

/-- Settles O16: `constructor` reads the form of each printed expression off its shape, and the form shows, position by
position, the bits of the operation's list. -/
theorem tileYsAndYfOffsets : Obligations.TileYsAndYfOffsets := by
  intro s x y
  refine ⟨?_, ?_, ?_, ?_, ?_, ?_⟩
  all_goals
    apply SwizzleExpr.answers (n := 0) (meaning := rfl)
    · repeat' with_reducible constructor
    · decide

/-- Settles O17 as O16 is settled, with the sample number among the operands. -/
theorem multisampledTileYsOffsets : Obligations.MultisampledTileYsOffsets := by
  intro s x y n
  refine ⟨?_, ?_, ?_, ?_, ?_, ?_, ?_, ?_, ?_, ?_, ?_, ?_⟩
  all_goals
    apply SwizzleExpr.answers (n := n) (meaning := rfl)
    · repeat' with_reducible constructor
    · decide

/-! ### One-to-one -/

/-- Equal answers come from equal positions, where the list has at most 16 bits and names all of a position's. -/
theorem CoversTile.position_eq_of_answer {bs : List TileBit} {k m : Nat} (c : CoversTile bs k m)
    (length : bs.length ≤ 16) {s : State} {x y x' y' : BitVec 16}
    (hx : x.toNat < 2 ^ k) (hx' : x'.toNat < 2 ^ k) (hy : y.toNat < 2 ^ m) (hy' : y'.toNat < 2 ^ m)
    (h : answer s (.offset (BitVec.ofNat 16 (swizzle bs x.toNat y.toNat 0))) =
      answer s (.offset (BitVec.ofNat 16 (swizzle bs x'.toNat y'.toNat 0)))) : x = x' ∧ y = y' := by
  have fits (x y : Nat) : swizzle bs x y 0 < 2 ^ 16 :=
    (swizzle_lt bs x y 0).trans_le (Nat.pow_le_pow_right Nat.two_pos length)
  simp only [answer, Host.Outcome.next.injEq, State.mk.injEq, Result.offset.injEq, true_and, and_true] at h
  have same : swizzle bs x.toNat y.toNat 0 = swizzle bs x'.toNat y'.toNat 0 := by
    have sameNat := congrArg BitVec.toNat h
    rwa [BitVec.toNat_ofNat, BitVec.toNat_ofNat, Nat.mod_eq_of_lt (fits _ _), Nat.mod_eq_of_lt (fits _ _)] at sameNat
  obtain ⟨sameX, sameY⟩ := c.position_eq hx hx' hy hy' same
  exact ⟨BitVec.eq_of_toNat_eq sameX, BitVec.eq_of_toNat_eq sameY⟩

theorem ys64Bits_covers : CoversTile ys64Bits 10 6 := ⟨by decide, by decide⟩
theorem ys16Bits_covers : CoversTile ys16Bits 9 7 := ⟨by decide, by decide⟩
theorem ys8Bits_covers : CoversTile ys8Bits 8 8 := ⟨by decide, by decide⟩
theorem yf64Bits_covers : CoversTile yf64Bits 8 4 := ⟨by decide, by decide⟩
theorem yf16Bits_covers : CoversTile yf16Bits 7 5 := ⟨by decide, by decide⟩
theorem yf8Bits_covers : CoversTile yf8Bits 6 6 := ⟨by decide, by decide⟩

/-- Settles O18: each of the six lists names every bit of a position inside its tile. -/
theorem tileYsOffsetsAreOneToOne : Obligations.TileYsOffsetsAreOneToOne := fun _ _ _ _ _ =>
  ⟨ys64Bits_covers.position_eq_of_answer (by decide), ys16Bits_covers.position_eq_of_answer (by decide),
    ys8Bits_covers.position_eq_of_answer (by decide), yf64Bits_covers.position_eq_of_answer (by decide),
    yf16Bits_covers.position_eq_of_answer (by decide), yf8Bits_covers.position_eq_of_answer (by decide)⟩

end Sys2Proof.Machine
end

section
/-! PROOFS. SURF.2D: when it answers an address, and the offset in a linear surface. -/
namespace Sys2Proof.Machine

/-! ### The operation -/

theorem execSurf2D_of_misaligned {a : Surf2D} (h : baseAligned2D a = false) (s : State) :
    execSurf2D a s = .refused .surfaceMisaligned := if_pos (by simp [h])

theorem execSurf2D_of_aligned {a : Surf2D} (h : baseAligned2D a = true) (s : State) : execSurf2D a s =
    if stated2D a then answerOffset s a.base.toNat (surf2DOffset a) else freeAddress s := if_neg (by simp [h])

theorem execSurf2D_of_stated {a : Surf2D} (ha : baseAligned2D a = true) (hs : stated2D a = true) (s : State) :
    execSurf2D a s = answerOffset s a.base.toNat (surf2DOffset a) := (execSurf2D_of_aligned ha s).trans (if_pos hs)

theorem execSurf2D_of_unstated {a : Surf2D} (ha : baseAligned2D a = true) (hs : stated2D a = false) (s : State) :
    execSurf2D a s = freeAddress s := (execSurf2D_of_aligned ha s).trans (if_neg (by simp [hs]))

theorem surf2D_answers {a : Surf2D} (ha : baseAligned2D a = true) (hs : stated2D a = true)
    (h : surf2DOffset a < 2 ^ 38) (s : State) : Answers (.surf2D a) s (.address (a.base.toNat + surf2DOffset a)) :=
  (execSurf2D_of_stated ha hs s).trans (answerOffset_of_lt h)

/-! ### Linear surfaces -/

/-- The sizes of a LOD that the block size divides. -/
theorem inElements_of_dvd {p w : Nat} (h : w % p = 0) : inElements p w = w / p := if_pos h

/-- A surface without tiled resources, tiles and multisamples. -/
structure PlainLinear (a : Surf2D) : Prop where
  tile : a.tile = .linear
  tr : a.tr = .none
  samples : a.samples = .s1
  separate : a.interleaved = false

section
variable {a : Surf2D} (h : PlainLinear a)
include h

theorem PlainLinear.baseAligned : baseAligned2D a = true := by
  simp [baseAligned2D, h.tr, h.tile]

theorem PlainLinear.not_inMipTail : inMipTail a = false := by
  simp [inMipTail, h.tr]

theorem PlainLinear.not_sliced : sliced a = false := by
  simp [sliced, h.samples]

theorem PlainLinear.tileShape_eq : tileShape a = ⟨0, 0, []⟩ := by
  simp [tileShape, h.tr, h.tile, legacyShape]

theorem PlainLinear.stated (hp : a.p ≠ 0) (hq : a.q ≠ 0) (hi : a.i ≠ 0) (hj : a.j ≠ 0) (hss : a.ss = 0)
    (hlod : a.lod.toNat ≤ a.mips.toNat) : stated2D a = true := by
  have units : unitsStated a = true := by
    simpa [unitsStated] using ⟨⟨hp, hq⟩, Or.inr ⟨hi, hj⟩⟩
  have mode : modeStated a = true := by simp [modeStated, h.tr]
  simp [stated2D, shapeStated, h.tileShape_eq, h.not_inMipTail, units, mode, Nat.mod_one, hlod, hss, sampleCount]

theorem PlainLinear.bytesUV : bytesUV2D a = ((a.u.toNat + (lodUV2D a).1 + a.xoff.toNat) * 2 ^ bpeLog a.bpe,
    a.r.toNat * a.qpitch.toNat + (lodUV2D a).2 + a.v.toNat + a.yoff.toNat) := by
  simp [bytesUV2D, elementUV, arrayIndex, h.separate, h.not_sliced, Nat.shiftLeft_eq]

/-- A linear surface has no tile: its offset is `v * Pitch + u` (R1234). -/
theorem PlainLinear.offset : surf2DOffset a = (bytesUV2D a).2 * a.pitch.toNat + (bytesUV2D a).1 := by
  simp [surf2DOffset, h.tr, h.tileShape_eq, shapedOffset, swizzle]

theorem PlainLinear.lodUV : lodUV2D a = lodOffset2D (lodElements a (align2D a)) a.lod.toNat := by
  simp [lodUV2D, h.not_inMipTail]

/-- The height of LOD 0: that of the surface, rounded up to `j`, in blocks (R1222, R1224). -/
theorem PlainLinear.height_lod_zero : (lodElements a (align2D a) 0).2 =
    inElements a.q.toNat (a.j.toNat * ((max 1 a.height.toNat + a.j.toNat - 1) / a.j.toNat)) := by
  simp [lodElements, align2D, h.tr, h.separate, lodExtent, alignTo, ceilDiv]

/-- LOD 0 lies at the origin and LOD 1 below it (R1225). -/
theorem PlainLinear.lodUV_of_lt_two (hlod : a.lod.toNat < 2) :
    lodUV2D a = (0, if a.lod = 0 then 0 else (lodElements a (align2D a) 0).2) := by
  rw [h.lodUV]
  by_cases first : a.lod = 0
  · simp [first, lodOffset2D]
  · have positive : a.lod.toNat ≠ 0 := fun zero => first (BitVec.eq_of_toNat_eq zero)
    have second : a.lod.toNat = 1 := by omega
    rw [if_neg first, second, lodOffset2D]
end

/-- Settles O50: the branches of the operation, and for a linear surface the offset of R1234 at the origin of the LOD. -/
theorem twoDimensionalSurfaceCompletes : Obligations.TwoDimensionalSurfaceCompletes := by
  refine fun s a => ⟨fun ha hs h => surf2D_answers ha hs h s, fun ha hs => ?free, fun ha hs h => ?large,
    fun ha => execSurf2D_of_misaligned ha s, ?linear⟩
  case free => exact ⟨_, (execSurf2D_of_unstated ha hs s).trans (freeAddress_eq s)⟩
  case large => exact (execSurf2D_of_stated ha hs s).trans (answerOffset_of_le h)
  case linear =>
    intro u height v off tile tr samples separate hp hq hi hj hss hlod hlod2 whole hoff
    have plain : PlainLinear a := ⟨tile, tr, samples, separate⟩
    have origin : lodUV2D a = (0, if a.lod = 0 then 0 else height / a.q.toNat) := by
      rw [plain.lodUV_of_lt_two hlod2, plain.height_lod_zero, inElements_of_dvd whole]
    have offset : surf2DOffset a = off := by
      rw [plain.offset, plain.bytesUV, origin, Nat.add_zero]
    have stated := plain.stated hp hq hi hj hss hlod
    rw [← offset] at hoff ⊢
    exact surf2D_answers plain.baseAligned stated hoff s

end Sys2Proof.Machine
end

section
/-! PROOFS. TRTT.WALK: a table read that the page tables map, the walk of R508 level by level, and the operation's answer
from the result of the walk. -/
namespace Sys2Proof.Machine

/-! ### A table read -/

/-- A state after `k` table reads: only the counter of free values and the controls of the last read have moved. -/
def afterReads (s : State) (k : Nat) (w : Option MemControls) : State :=
  { s with freeCount := s.freeCount + k, walkerCtl := w }

/-- The controls of the table read at `p` that follows `k` others: those of MOCS entry 62 (R244, R290). -/
def tableControls (s : State) (c : Ctx) (k : Nat) (pat pcd pwt : Bool) (p : Nat) : MemControls :=
  memoryControls { s with freeCount := s.freeCount + k } (some .render) c.advanced .other (some 62) false pat pcd pwt p

section
variable {s : State} {c : Ctx}

/-- With no write hidden from the walker, a table read answers the bytes of memory. -/
theorem tableReadAt_afterReads (clean : s.oldBytes = []) (k : Nat) (w : Option MemControls) (va n pa : Nat)
    (pat pcd pwt : Bool) : tableReadAt (afterReads s k w) false c va n pa pat pcd pwt =
      (.value (BitVec.ofNat 64 (memRead s pa n)) false,
        afterReads s (k + 1) (some (tableControls s c k pat pcd pwt pa))) := by
  rw [tableReadAt, loadSeen_nothing]
  · rfl
  · exact clean

/-- A table read that the page tables map to `p`, after `k` others. -/
theorem tableRead_afterReads {a p n k : Nat} {w : Option MemControls} {z : PageSize} {pat pcd pwt d : Bool}
    (clean : s.oldBytes = []) (outside : inTrva s a = false) (fits : physOk s.par p n = true)
    (mapped : stage2 (afterReads s k w) false (some .render) .other (some c) c.mode a .read =
      (.ok (.phys p z pat pcd pwt) d, afterReads s k w)) :
    tableRead (afterReads s k w) false false false c c.mode a n =
      (.value (BitVec.ofNat 64 (memRead s p n)) false,
        afterReads s (k + 1) (some (tableControls s c k pat pcd pwt p))) := by
  have outside' : inTrva (afterReads s k w) a = false := outside
  have fits' : physOk (afterReads s k w).par p n = true := fits
  simp only [tableRead, outside', tableReadMem, mapped, fits', if_true, Bool.false_and, Bool.false_eq_true, if_false]
  exact tableReadAt_afterReads clean k w a n p pat pcd pwt

/-- The same where the attributes of the mapping do not matter. -/
theorem exists_tableRead_afterReads {a p n k : Nat} {w : Option MemControls} (clean : s.oldBytes = [])
    (outside : inTrva s a = false) (fits : physOk s.par p n = true)
    (mapped : ∃ z pat pcd pwt d, stage2 (afterReads s k w) false (some .render) .other (some c) c.mode a .read =
      (.ok (.phys p z pat pcd pwt) d, afterReads s k w)) :
    ∃ w', tableRead (afterReads s k w) false false false c c.mode a n =
      (.value (BitVec.ofNat 64 (memRead s p n)) false, afterReads s (k + 1) w') := by
  obtain ⟨z, pat, pcd, pwt, d, mapped⟩ := mapped
  exact ⟨_, tableRead_afterReads clean outside fits mapped⟩
end

/-! ### The levels of the walk -/

/-- The result of an L1 entry (R508). -/
def l1Tile (r : TrttRegs) (e1 : DWord) (va : Nat) : TrttResult :=
  if e1 = r.nullDetect then .null
  else if e1 = r.invalidDetect then .invalid
  else .mapped (e1.toNat * 65536 + va % 65536)

section
variable {s t : State} {c : Ctx} {m : Mode} {va : Nat}

theorem trttL1_of_read {e2 v : QWord}
    (read : tableRead s false false false c m (bits e2 47 12 * 4096 + 4 * nbits va 25 16) 4 = (.value v false, t)) :
    trttL1 s false none false c m e2 va = (.done (l1Tile t.trtt (BitVec.ofNat 32 v.toNat) va) false, t) := by
  have not_failed : (none == some 1 : Bool) = false := rfl
  simp only [trttL1, not_failed, read, l1Tile]
  split
  · rfl
  · split <;> rfl

theorem trttL2_of_read {e3 e2 : QWord}
    (read : tableRead s false false false c m (bits e3 47 12 * 4096 + 8 * nbits va 34 26) 8 = (.value e2 false, t)) :
    trttL2 s false none false c m e3 va =
      if bit e2 0 || bit e2 1 then (.done (nullOrInvalid t.par e2) false, t)
      else trttL1 t false none false c m e2 va := by
  have not_failed : (none == some 2 : Bool) = false := rfl
  simp only [trttL2, not_failed, read, Bool.or_self]

theorem trttWalk_of_read {e3 : QWord}
    (read : tableRead s false false false c m (bits s.trtt.l3ptr 47 16 * 65536 + 8 * nbits va 43 35) 8 =
      (.value e3 false, t)) :
    trttWalk s false none c m va =
      if bit e3 0 || bit e3 1 then (.done (nullOrInvalid t.par e3) false, t)
      else trttL2 t false none false c m e3 va := by
  have not_failed : (none == some 3 : Bool) = false := rfl
  simp only [trttWalk, not_failed, read]
end

/-! ### The operation -/

/-- What lets TRTT.WALK of `va` make its walk: a resident context that may run, TR-TT on for `va`, an engine that takes
walks. -/
structure TrttRuns (s : State) (c : Ctx) (va : QWord) : Prop where
  resident : (s.eng .render).ctx = some c
  selected : trttRefusal s c.mode va.toNat = none
  allowed : iommuRefusal c = none
  ready : walkWaits s (some .render) = false

/-- TRTT.WALK answers `r`, in state `t` but for the effects of `r`. -/
def TrttAnswers (s : State) (va : QWord) (t : State) (r : TrttResult) : Prop :=
  exec (.trttWalk va) s = .next { trttEffect t r va.toNat with out := .trtt r }

section
variable {s t : State} {c : Ctx} {va : QWord} (run : TrttRuns s c va)
include run

theorem TrttRuns.answers {r : TrttResult} {arb : Bool}
    (walk : trttWalk s false none c c.mode va.toNat = (.done r arb, t)) : TrttAnswers s va t r := by
  have unfolded : exec (.trttWalk va) s = outcome (trttOperation s none va.toNat) := rfl
  simp only [TrttAnswers, unfolded, trttOperation, run.resident, run.selected, run.allowed, run.ready, trttMake, walk,
    outcome, Bool.false_eq_true, if_false]

/-- `NullOrInvalid` (R508) of an entry with bit 1 or bit 0 set, as the answer of the walk that the entry ends. -/
theorem TrttRuns.answers_of_entry {e : QWord}
    (walk : (bit e 0 || bit e 1) = true →
      trttWalk s false none c c.mode va.toNat = (.done (nullOrInvalid s.par e) false, t)) :
    (bit e 1 = true → bit e 0 = false → TrttAnswers s va t .null) ∧
    (bit e 1 = false → bit e 0 = true → TrttAnswers s va t .invalid) ∧
    (bit e 1 = true → bit e 0 = true → s.par.trttBothBits = .null → TrttAnswers s va t .null) ∧
    (bit e 1 = true → bit e 0 = true → s.par.trttBothBits = .invalid → TrttAnswers s va t .invalid) := by
  have ends {r : TrttResult} (set : (bit e 0 || bit e 1) = true) (result : nullOrInvalid s.par e = r) :
      TrttAnswers s va t r := run.answers (result ▸ walk set)
  exact ⟨fun h1 h0 => ends (by simp [h1]) (by simp [nullOrInvalid, h1, h0]),
    fun h1 h0 => ends (by simp [h0]) (by simp [nullOrInvalid, h1, h0]),
    fun h1 h0 both => ends (by simp [h1]) (by simp [nullOrInvalid, h1, h0, both]),
    fun h1 h0 both => ends (by simp [h1]) (by simp [nullOrInvalid, h1, h0, both])⟩
end

/-- Settles O25: each table read leaves `afterReads` of the state and the entry in memory; the levels of the walk then
give its result, and the result the answer. -/
theorem trttWalkFindsTheTile : Obligations.TrttWalkFindsTheTile := by
  intro s c va e3 e2 e1 a3 a2 a1 p3 p2 p1 z pat pcd pwt d resident selected allowed ready clean ha3 ha2 ha1 he3 he2 he1
    place reads last
  subst ha3 ha2 ha1
  have run : TrttRuns s c va := ⟨resident, selected, allowed, ready⟩
  refine ⟨fun ⟨outside, fits⟩ mapped => ?l3Ends, fun ⟨outside, fits⟩ mapped clear0 clear1 => ?below⟩
  case l3Ends =>
    have read := tableRead_afterReads (k := 0) (w := s.walkerCtl) clean outside fits (mapped _ _)
    rw [← he3] at read
    exact run.answers_of_entry fun set => (trttWalk_of_read read).trans (if_pos set)
  obtain ⟨w3, read3⟩ := exists_tableRead_afterReads (k := 0) (w := s.walkerCtl) clean outside fits (mapped _ _)
  rw [← he3] at read3
  have walk3 := (trttWalk_of_read read3).trans (if_neg (by simp [clear0, clear1]))
  refine ⟨fun ⟨outside, fits⟩ mapped => ?l2Ends,
    fun ⟨outside, fits⟩ mapped clear0 clear1 ⟨outside1, fits1⟩ mapped1 => ?l1⟩
  case l2Ends =>
    have read := tableRead_afterReads (k := 1) (w := w3) clean outside fits (mapped _ _)
    rw [← he2] at read
    exact run.answers_of_entry fun set => walk3.trans ((trttL2_of_read read).trans (if_pos set))
  case l1 =>
    obtain ⟨w2, read2⟩ := exists_tableRead_afterReads (k := 1) (w := w3) clean outside fits (mapped _ _)
    rw [← he2] at read2
    have walk2 := (trttL2_of_read read2).trans (if_neg (by simp [clear0, clear1]))
    have read1 := tableRead_afterReads (k := 2) (w := w2) clean outside1 fits1 (mapped1 _ _)
    have walk := walk3.trans (walk2.trans (trttL1_of_read read1))
    have entry : BitVec.ofNat 32 (BitVec.ofNat 64 (memRead s p1 4)).toNat = e1 := by
      rw [he1, BitVec.ofNat_toNat, BitVec.setWidth_ofNat_of_le (by decide)]
    rw [entry] at walk
    have answers {r : TrttResult} (result : l1Tile s.trtt e1 va.toNat = r) :
        TrttAnswers s va (afterReads s 3 (some (tableControls s c 2 pat pcd pwt p1))) r :=
      run.answers (result ▸ walk)
    exact ⟨fun isNull => answers (if_pos isNull),
      fun isInvalid notNull => answers ((if_neg notNull).trans (if_pos isInvalid)),
      fun notNull notInvalid => answers ((if_neg notNull).trans (if_neg notInvalid))⟩

end Sys2Proof.Machine
end

section
/-! SUPPORT. A walk operation: when it makes its walk, and what the result of the walk makes of the state. -/
namespace Sys2Proof.Machine

/-! ### Fault and hang -/

/-- Everything fault and hang does (R1312, R33): the engine is hung on the fault and needs a reset, its context stays, the
driver is told, the request waits, and memory and the page requests are as before. -/
structure HangsOn (s : State) (e : Engine) (f : PageFault) (p : Pending) (t : State) : Prop where
  run : (t.eng e).run = .hung f true
  needsReset : (t.eng e).needsReset = true
  ctx : (t.eng e).ctx = (s.eng e).ctx
  driver : t.events.driver = s.events.driver ++ [.hangReport e f]
  waiting : t.waiting = s.waiting ++ [⟨p, true, none⟩]
  out : t.out = .pageFault f.code f.level
  outstanding : t.outstanding = s.outstanding
  mem : t.mem = s.mem

theorem takeHang_hangsOn (s : State) (e : Engine) (f : PageFault) (p : Pending) :
    HangsOn s e f p (takeHang s e f p) := by
  have eng : (takeHang s e f p).eng e = { s.eng e with needsReset := true, run := .hung f true } := by
    have hung : (takeHang s e f p).eng e = ((needReset s e).setRun e (.hung f true)).eng e := rfl
    rw [hung, State.setRun, needReset, State.eng_setEng_same, State.eng_setEng_same]
  constructor
  case run | needsReset | ctx => rw [eng]
  all_goals rfl

/-- A fault of a GGTT access, or of a legacy context, is fault and hang (R1308). -/
theorem takePageFault_hang {s : State} {f : PageFault} {e : Engine} {c : Ctx} (engine : f.engine = some e)
    (resident : (s.eng e).ctx = some c) (hangs : f.ggtt = true ∨ c.advanced = false) (k : Client)
    (m : Option (BitVec 6)) (p : Pending) : takePageFault s f k m p = .ok (takeHang s e f p) := by
  rcases ggtt : f.ggtt
  · have legacy : c.advanced = false := by simpa [ggtt] using hangs
    simp [takePageFault, engine, ggtt, resident, faultModelOf, legacy]
  · simp [takePageFault, engine, ggtt]

/-! ### The end of a walk -/

theorem finishWalk_of_page {s : State} {x : Xlate} (ok : xlateOk s.par x = true) (l : LeafAttr) (c : Option Ctx)
    (r : WalkReq) : finishWalk (.ok x l, s) c r = .ok { s with out := .xlate x } := if_pos ok

theorem finishWalk_of_unfit {s : State} {x : Xlate} (bad : xlateOk s.par x = false) (l : LeafAttr) (c : Option Ctx)
    (r : WalkReq) : finishWalk (.ok x l, s) c r = .error .physicalRange := if_neg (by simp [bad])

theorem finishWalk_of_hang {s : State} {r : WalkReq} {e : Engine} {c : Ctx} (engine : r.engine = some e)
    (resident : (s.eng e).ctx = some c) (hangs : r.ggtt = true ∨ c.advanced = false) (code : FaultCode) (l : Level)
    (us : Bool) : finishWalk (.fault code l us, s) (some c) r =
      .ok (takeHang s e (faultOf r.engine (some c) r.ggtt r.va r.acc code l us) (.walk r)) :=
  takePageFault_hang (f := faultOf r.engine (some c) r.ggtt r.va r.acc code l us) engine resident hangs _ _ _

/-! ### Its start -/

theorem doWalk_of_waits {s : State} {r : WalkReq} (waits : walkWaits s r.engine = true) (m : Mode) (c : Option Ctx)
    (cx : Ctx) : doWalk r m c cx s = .ok (enqueue s (.plain (.walk r))) := if_pos waits

theorem doWalk_of_ready {s : State} {r : WalkReq} (ready : walkWaits s r.engine = false) (m : Mode) (c : Option Ctx)
    (cx : Ctx) : doWalk r m c cx s = finishWalk (walkMode s .memory r.engine cx m r.va r.acc) c r :=
  if_neg (by simp [ready])

/-- A walk operation made in memory leaves the state to the end of the walk as it was, but where the context keeps
Accessed and Dirty bits. -/
theorem walkMode_uncached {m : Mode} {c : Ctx} (reads : m ≠ .advanced ∨ c.adEnable = false) (s : State)
    (who : Option Engine) (va : Nat) (a : Acc) : (walkMode s .memory who c m va a).2 = s := by
  cases m
  case ggtt => exact ggttWalk_uncached s who va
  case legacy32 => exact ppgtt32Walk_uncached s who c va a
  case legacy48 => exact ppgtt48Walk_uncached s who c va a
  case advanced => exact ia32eWalk_uncached s who c va a (by simpa using reads)

/-- What an engine's access must meet before it is translated (R207, U17, U48, U49, U43). -/
theorem clientProgramming_eq_none {s : State} {e : Engine} {c : Ctx} {k : Client} {m : BitVec 6} {a : Acc}
    (client : k.readOnly = true → isWrite a = false) (mocs : m.toNat < 62) (pfm : pfmField s e (some m) = 0)
    (coherent : c.advanced = false ∨ ¬ (c.faultModel = 1 ∧ k = .hdcCoherent)) (iommu : iommuRefusal c = none) :
    clientProgramming s e c k (some m) a = none := by
  have allowed : (k.readOnly && isWrite a) = false := by
    cases h : k.readOnly
    · rfl
    · exact client h
  have unreserved : mocsReserved (some m) = false := by simpa [mocsReserved] using mocs
  have streams : (c.advanced && c.faultModel.toNat == 1 && k == .hdcCoherent) = false := by
    rcases coherent with legacy | coherent
    · simp [legacy]
    · have one : c.faultModel.toNat = 1 ↔ c.faultModel = 1 := BitVec.toNat_inj (y := 1)
      simp only [Bool.and_eq_false_iff, beq_eq_false_iff_ne, ne_eq, one]
      tauto
  simp [clientProgramming, allowed, unreserved, pfm, streams, iommu]

/-- What lets a walk operation of engine `e`, for client `k` with MOCS index `m` and access `a`, make its walk. -/
structure WalkRuns (s : State) (e : Engine) (k : Client) (m : BitVec 6) (a : Acc) (c : Ctx) : Prop where
  resident : (s.eng e).ctx = some c
  ready : walkWaits s (some e) = false
  programmed : clientProgramming s e c k (some m) a = none

/-- Then the operation of the context's walker ends as the walk in memory does. -/
theorem WalkRuns.walkCtx_eq {s : State} {e : Engine} {k : Client} {m : BitVec 6} {a : Acc} {c : Ctx} {mode : Mode}
    (run : WalkRuns s e k m a c) (selected : c.mode = mode) (va : QWord) :
    walkCtx mode e (ctxWalkReq e k m a va) s =
      finishWalk (walkMode s .memory (some e) c mode va.toNat a) (some c) (ctxWalkReq e k m a va) := by
  have programmed := run.programmed
  have made : walkCtx mode e (ctxWalkReq e k m a va) s = doWalk (ctxWalkReq e k m a va) mode (some c) c s := by
    simp only [walkCtx, run.resident, selected, ne_eq, not_true_eq_false, if_false, ctxWalkReq, programmed]
  rw [made]
  exact doWalk_of_ready run.ready _ _ _

end Sys2Proof.Machine
end

section
/-! PROOFS. Memory under the operations that are no table updates: what taking a fault leaves of it, and the frame of every
other operation. -/
namespace Sys2Proof.Machine

/-! ### Facts and arbitrary values -/

@[simp] theorem freeBytes_mem (s : State) (n : Nat) : (freeBytes s n).2.mem = s.mem := by rw [freeBytes_state]
@[simp] theorem freeQ_mem (s : State) : (freeQ s).2.mem = s.mem := freeBytes_mem s 8
@[simp] theorem freeChoice_mem (s : State) : (freeChoice s).2.mem = s.mem := rfl

@[simp] theorem makeRoom_mem (s : State) (who : Option Engine) (k : TlbId) : (makeRoom s who k).mem = s.mem := by
  unfold makeRoom
  split
  · rfl
  · simp

@[simp] theorem remember_mem (s : State) (who : Option Engine) (f : Fact) : (remember s who f).mem = s.mem := by
  unfold remember
  split <;> simp

/-! ### Taking faults -/

@[simp] theorem markBad_mem (s : State) (e : Engine) : (markBad s e).mem = s.mem := by
  unfold markBad
  split <;> rfl

@[simp] theorem takeCatastrophic_mem (s : State) (e : Engine) (k : ErrorKind) :
    (takeCatastrophic s e k).mem = s.mem := by
  unfold takeCatastrophic
  split
  · rfl
  · simp [needReset]

@[simp] theorem hdcFaultResponse_mem (s : State) (r : HdcReq) (c : FaultCode) (m : FaultModel) :
    (hdcFaultResponse s r c m).2.mem = s.mem := by
  simp [hdcFaultResponse]

@[simp] theorem sendHdcResponse_mem (s : State) (r : HdcResp) : (sendHdcResponse s r).mem = s.mem := by
  unfold sendHdcResponse
  split <;> rfl

/-- An invalid access changes no memory (R1324). -/
@[simp] theorem completeInvalid_mem (s : State) (p : Pending) : (completeInvalid s p).mem = s.mem := by
  cases p <;> simp [completeInvalid]

@[simp] theorem returnFaultCode_mem (s : State) (f : PageFault) (m : FaultModel) (p : Pending) :
    (returnFaultCode s f m p).mem = s.mem := by
  cases p <;> simp [returnFaultCode]

@[simp] theorem sendPageRequest_mem (s : State) (e : Engine) (c : Ctx) (k : Client) (f : PageFault) (m : FaultModel) :
    (sendPageRequest s e c k f m).mem = s.mem := by
  simp [sendPageRequest, issueRequest]

@[simp] theorem dropPage_mem (s : State) (e : Engine) (k : Client) (g : Bool) (va : Nat) :
    (dropPage s e k g va).mem = s.mem := by
  unfold dropPage
  dsimp only
  split <;> simp

@[simp] theorem takeHalt_mem (s : State) (e : Engine) (c : Ctx) (k : Client) (f : PageFault) (l : Option Nat)
    (p : Pending) : (takeHalt s e c k f l p).mem = s.mem := by
  simp [takeHalt, State.setRun]

@[simp] theorem takeStream_mem (s : State) (e : Engine) (c : Ctx) (k : Client) (f : PageFault) (p : Pending) :
    (takeStream s e c k f p).mem = s.mem := by
  unfold takeStream
  dsimp only
  split <;> simp

/-- A page fault that is taken changes no memory, under whichever model. -/
theorem takePageFault_mem {s t : State} {f : PageFault} {k : Client} {m : Option (BitVec 6)} {p : Pending}
    (h : takePageFault s f k m p = .ok t) : t.mem = s.mem := by
  have hang (e : Engine) : (takeHang s e f p).mem = s.mem := (takeHang_hangsOn s e f p).mem
  unfold takePageFault at h
  repeat' split at h
  all_goals cases h
  all_goals simp [hang]

/-! ### Walk operations -/

/-- A walk that leaves memory alone, to the end of its operation. -/
theorem finishWalk_mem {s t : State} {w : WalkRes × State} {c : Option Ctx} {r : WalkReq} (walk : w.2 = s)
    (h : finishWalk w c r = .ok t) : t.mem = s.mem := by
  subst walk
  unfold finishWalk at h
  split at h
  case h_1 =>
    split at h <;> cases h
    rfl
  case h_2 => exact takePageFault_mem h
  case h_3 =>
    split at h <;> cases h
    · exact takeCatastrophic_mem _ _ _
    · rfl
  case h_4 => cases h

theorem doWalk_mem {s t : State} {r : WalkReq} {m : Mode} {c : Option Ctx} {cx : Ctx}
    (reads : m ≠ .advanced ∨ cx.adEnable = false) (h : doWalk r m c cx s = .ok t) : t.mem = s.mem := by
  unfold doWalk at h
  split at h
  · cases h
    rfl
  · exact finishWalk_mem (walkMode_uncached reads _ _ _ _) h

theorem walkGgtt_mem {s t : State} {r : WalkReq} (h : walkGgtt r s = .ok t) : t.mem = s.mem := by
  have reads : Mode.ggtt ≠ .advanced := by decide
  unfold walkGgtt at h
  repeat' split at h
  · exact doWalk_mem (.inl reads) h
  · cases h
  · cases h
  · exact doWalk_mem (.inl reads) h

theorem walkCtx_mem {s t : State} {m : Mode} {e : Engine} {r : WalkReq} (legacy : m ≠ .advanced)
    (h : walkCtx m e r s = .ok t) : t.mem = s.mem := by
  unfold walkCtx at h
  repeat' split at h
  · cases h
  · cases h
  · cases h
  · exact doWalk_mem (.inl legacy) h

/-! ### Invalidation -/

theorem invalidateEngine_mem (s : State) (k : InvScope) (x : InvStructs) (e : Engine) :
    (invalidateEngine s k x e).mem = s.mem := by
  unfold invalidateEngine
  dsimp only
  split <;> rfl

/-- An invalidation removes remembered facts and requests of HDCs. -/
theorem invalidateTlb_mem (s : State) (k : InvScope) (x : InvStructs) : (invalidateTlb s k x).mem = s.mem := by
  have engines (es : List Engine) : (es.foldl (fun t e => invalidateEngine t k x e) s).mem = s.mem := by
    induction es generalizing s with
    | nil => rfl
    | cons e es ih => exact (ih _).trans (invalidateEngine_mem s k x e)
  unfold invalidateTlb
  dsimp only
  split <;> split <;> exact engines _

/-! ### Every operation -/

/-- Memory after an operation, if it answers, is as before. -/
def LeavesMem (s : State) (o : Host.Outcome State Fault Refusal) : Prop := ∀ t, o = .next t → t.mem = s.mem

theorem answer_leavesMem {s u : State} (h : u.mem = s.mem) (r : Result) : LeavesMem s (answer u r) := by
  rintro t ⟨⟩
  exact h

theorem refused_leavesMem (s : State) (x : Refusal) : LeavesMem s (.refused x) := by
  intro t next
  cases next

theorem outcome_leavesMem {s : State} {r : Except Refusal State} (h : ∀ t, r = .ok t → t.mem = s.mem) :
    LeavesMem s (outcome r) := fun t next => h t (outcome_eq_next.1 next)

theorem answerOffset_leavesMem (s : State) (b o : Nat) : LeavesMem s (answerOffset s b o) := by
  intro t next
  rw [(answerOffset_ok next).2]

theorem freeAddress_leavesMem (s : State) : LeavesMem s (freeAddress s) := answer_leavesMem (freeQ_mem s) _

theorem execTile_leavesMem (k : TileWalk) (b : BitVec 64) (p x y : BitVec 32) (s : State) :
    LeavesMem s (execTile k b p x y s) := by
  unfold execTile
  split
  · exact refused_leavesMem _ _
  · exact answerOffset_leavesMem _ _ _

/-- A surface function: refused, answered, or a free value. -/
theorem surf_leavesMem {p q : Prop} [Decidable p] [Decidable q] (x : Refusal) (s : State) (b o : Nat) :
    LeavesMem s (if p then .refused x else if q then answerOffset s b o else freeAddress s) := by
  split
  · exact refused_leavesMem _ _
  · split
    · exact answerOffset_leavesMem _ _ _
    · exact freeAddress_leavesMem _

theorem execTileFence_leavesMem (l b : BitVec 64) (p : BitVec 32) (k : TileWalk) (s : State) :
    LeavesMem s (execTileFence l b p k s) := by
  unfold execTileFence
  split
  · exact answer_leavesMem rfl _
  · exact freeAddress_leavesMem _

theorem execBufTyped_leavesMem (b : BitVec 64) (p u v : BitVec 32) (s : State) :
    LeavesMem s (execBufTyped b p u v s) := by
  unfold execBufTyped
  split
  · exact answerOffset_leavesMem _ _ _
  · exact freeAddress_leavesMem _

theorem execMcsDecode_leavesMem (n : Samples) (m : BitVec 64) (k : BitVec 4) (s : State) :
    LeavesMem s (execMcsDecode n m k s) := by
  unfold execMcsDecode
  split <;> exact answer_leavesMem rfl _

theorem execSurfCube_leavesMem (a : BitVec 32) (f : BitVec 3) (s : State) : LeavesMem s (execSurfCube a f s) := by
  unfold execSurfCube
  split
  · exact answer_leavesMem rfl _
  · exact answer_leavesMem (freeQ_mem s) _

theorem execSurfPad_leavesMem (a : SurfPad) (s : State) : LeavesMem s (execSurfPad a s) := by
  unfold execSurfPad
  dsimp only
  split
  all_goals exact answer_leavesMem (by simp) _

theorem execEtc1_leavesMem (v : BitVec 64) (n : Pos) (s : State) : LeavesMem s (execEtc1 v n s) := by
  refine answer_leavesMem ?_ _
  unfold decodeEtc1
  split <;> rfl

theorem execAstc_leavesMem (v : BitVec 128) (f : BitVec 9) (x y z : BitVec 4) (s : State) :
    LeavesMem s (execAstc v f x y z s) := by
  unfold execAstc
  split
  · exact refused_leavesMem _ _
  · split
    · exact refused_leavesMem _ _
    · split
      · exact answer_leavesMem rfl _
      · exact answer_leavesMem (freeQ_mem s) _

/-- The start of an invalidation, and an acknowledgement (R746). -/
theorem execHdcTlbInv_leavesMem {m : TlbInvMsg} (h : m ≠ .stop) (s : State) : LeavesMem s (execHdcTlbInv m s) := by
  cases m with
  | start =>
    unfold execHdcTlbInv
    dsimp only
    split <;> exact answer_leavesMem rfl _
  | ack slice hdc =>
    unfold execHdcTlbInv
    dsimp only
    split <;> exact answer_leavesMem rfl _
  | stop => exact absurd rfl h

/-- Settles O11: an operation that is no table update answers, refuses, walks a global or legacy table, or invalidates. -/
theorem onlyTableUpdatesWriteMemory : Obligations.OnlyTableUpdatesWriteMemory := by
  intro i s t reads next
  suffices h : LeavesMem s (exec i s) from h t next
  clear next
  cases i
  case ggttWalk => exact outcome_leavesMem fun _ => walkGgtt_mem
  case ppgtt32Walk => exact outcome_leavesMem fun _ => walkCtx_mem (by decide)
  case ppgtt48Walk => exact outcome_leavesMem fun _ => walkCtx_mem (by decide)
  case tlbInvalidate k x => exact answer_leavesMem (invalidateTlb_mem s k x) _
  case hdcTlbInv m => exact execHdcTlbInv_leavesMem (by rintro rfl; cases reads) s
  case tileLinear => exact answerOffset_leavesMem _ _ _
  case tileX => exact execTile_leavesMem _ _ _ _ _ _
  case tileY => exact execTile_leavesMem _ _ _ _ _ _
  case tileW => exact execTile_leavesMem _ _ _ _ _ _
  case tileFence => exact execTileFence_leavesMem _ _ _ _ _
  case bufTyped => exact execBufTyped_leavesMem _ _ _ _ _
  case bufRaw => exact answerOffset_leavesMem _ _ _
  case bufStructured => exact surf_leavesMem _ _ _ _
  case surf1D => exact surf_leavesMem _ _ _ _
  case surf2D => exact surf_leavesMem _ _ _ _
  case surf3D => exact surf_leavesMem _ _ _ _
  case surfCube => exact execSurfCube_leavesMem _ _ _
  case surfPad => exact execSurfPad_leavesMem _ _
  case mcsDecode => exact execMcsDecode_leavesMem _ _ _ _
  case etc1 => exact execEtc1_leavesMem _ _ _
  case astc => exact execAstc_leavesMem _ _ _ _ _ _
  case trttWalk | ia32eWalk | hdcPageReq | hdcPageResp | pageUpdate0000 | pageUpdate0001 | pageUpdate0010 | pageUpdate0011
      | pageUpdate0100 | pageUpdate0101 | pageUpdate0110 | pageUpdate0111 | pageUpdate1000 | pageUpdate1001
      | pageUpdate1010 | pageUpdate1011 | pageUpdate1100 | pageUpdate1101 | pageUpdate1110 | pageUpdate1111 | aUpdate000
      | aUpdate001 | aUpdate010 | aUpdate011 | aUpdate100 | adUpdate101 | adUpdate110 | adUpdate111 => cases reads
  all_goals exact answer_leavesMem rfl _

end Sys2Proof.Machine
end

section
/-! PROOFS. GGTT.WALK: the cases of the walk of R572, and the operation for an engine or for none. -/
namespace Sys2Proof.Machine

/-! ### The walk -/

section
variable {s : State} {va : Nat} (who : Option Engine)

theorem ggttWalk_of_large (h : 2 ^ 32 ≤ va) : ggttWalk s .memory who va = (.refuse .vaOutOfRange, s) := if_pos h

theorem ggttWalk_of_beyond (hva : va < 2 ^ 32) (h : s.par.gsmSize / 8 ≤ va / 4096) :
    ggttWalk s .memory who va = (.refuse .ggttBeyondGsm, s) := by
  rw [ggttWalk, if_neg (Nat.not_le.2 hva), if_pos h]

/-- Inside the GTT the entry decides. -/
theorem ggttWalk_of_inside (hva : va < 2 ^ 32) (h : va / 4096 < s.par.gsmSize / 8) {pte : QWord}
    (hpte : pte = memReadQ s (s.par.gsmBase + 8 * (va / 4096))) : ggttWalk s .memory who va =
      if bit pte 0 then (.ok (.phys (bits pte (s.par.haw - 1) 12 * 4096 + va % 4096) .size4K false false false)
        { rw := true, xd := false, dirty := true }, s)
      else (.fault .notPresent .gtt false, s) := by
  subst hpte
  rw [ggttWalk, if_neg (Nat.not_le.2 hva), if_neg (Nat.not_le.2 h), readEntryPlain_uncached]
  generalize memReadQ s _ = pte
  cases present : bit pte 0 <;> simp [entryP, present, addrField]
end

/-! ### The operation -/

/-- The context, if the walk is made for an engine, is the one resident there and may run (R110, U43). -/
def GgttRuns (s : State) (e : Option Engine) : Prop := ∀ f, e = some f → ∃ c, (s.eng f).ctx = some c ∧ iommuRefusal c = none

/-- An engine that runs has its walk made for its resident context, no engine for none (R571). -/
theorem walkGgtt_of_runs {s : State} {r : WalkReq} (runs : GgttRuns s r.engine) :
    ∃ c cx, (∀ f, r.engine = some f → ∃ d, c = some d ∧ (s.eng f).ctx = some d) ∧
      walkGgtt r s = doWalk r .ggtt c cx s := by
  cases engine : r.engine with
  | none => exact ⟨none, noCtx, nofun, by simp only [walkGgtt, engine]⟩
  | some f =>
    obtain ⟨c, resident, allowed⟩ := runs f engine
    refine ⟨some c, c, ?_, by simp only [walkGgtt, engine, resident, allowed]⟩
    rintro _ ⟨⟩
    exact ⟨c, rfl, resident⟩

/-- Settles O19: an engine without a context that may run is refused; the walk then waits, or ends as its entry says. -/
theorem ggttWalkAnswersThePage : Obligations.GgttWalkAnswersThePage := by
  intro s e a va pte pa hpte hpa q runs
  have unfolded : exec (.ggttWalk e a va) s = outcome (walkGgtt q s) := rfl
  rw [unfolded]
  refine ⟨fun f engine empty => ?noContext, fun f c x engine resident refused => ?notAllowed, fun run waits => ?waits,
    fun run ready => ?walks⟩
  case noContext =>
    subst engine
    simp [walkGgtt, q, empty, outcome]
  case notAllowed =>
    subst engine
    simp [walkGgtt, q, resident, refused, outcome]
  all_goals obtain ⟨c, cx, residents, walk⟩ := walkGgtt_of_runs (r := q) run
  case waits =>
    rw [walk, doWalk_of_waits waits]
    rfl
  have ends : walkGgtt q s = finishWalk (ggttWalk s .memory e va.toNat) c q := walk.trans (doWalk_of_ready ready _ _ _)
  refine ⟨fun large => ?_, fun hva beyond => ?_, fun hva inside => ?_⟩
  · rw [ends, ggttWalk_of_large e large]
    rfl
  · rw [ends, ggttWalk_of_beyond e hva beyond]
    rfl
  have entry := ggttWalk_of_inside e hva inside hpte
  rw [← hpa] at entry
  refine ⟨fun present fits => ?page, fun present unfit => ?unfit, fun absent engine => ?dropped,
    fun f absent engine => ?hangs⟩
  case page =>
    rw [Answers, unfolded, ends, entry, if_pos present, finishWalk_of_page (x := .phys pa _ _ _ _) fits]
    rfl
  case unfit =>
    rw [ends, entry, if_pos present, finishWalk_of_unfit (x := .phys pa _ _ _ _) unfit]
    rfl
  all_goals rw [if_neg (by simp [absent])] at entry
  case dropped =>
    rw [Answers, unfolded, ends, entry]
    subst engine
    rfl
  case hangs =>
    obtain ⟨d, rfl, resident⟩ := residents f engine
    have hang := finishWalk_of_hang (r := q) engine resident (.inl rfl) .notPresent .gtt false
    rw [ends, entry, hang]
    have h := takeHang_hangsOn s f (faultOf q.engine (some d) q.ggtt q.va q.acc .notPresent .gtt false) (.walk q)
    exact ⟨_, rfl, _, rfl, rfl, rfl, rfl, rfl, h.run, h.needsReset, h.driver, h.waiting, h.out, h.mem⟩

end Sys2Proof.Machine
end

section
/-! SUPPORT. The legacy walks, level by level: one equation for each thing an entry can be, when memory is read without
the caches. -/
namespace Sys2Proof.Machine

theorem entryP_eq (e : QWord) : entryP e = bit e 0 := rfl
theorem entryPS_eq (e : QWord) : entryPS e = bit e 7 := rfl

theorem addrField_twelve (haw : Nat) (e : QWord) : addrField haw e 12 = bits e (haw - 1) 12 * 4096 := rfl

/-- The size of the page that a page table's entries map (R580). -/
def ptSize (p : Params) (c : Ctx) (e2 : QWord) : PageSize :=
  if c.enable64K p && bit e2 11 then .size64K else .size4K

/-- The page-table entry that a page-directory entry leads to, in the terms of the statements. -/
theorem ptAddress_eq (p : Params) (c : Ctx) (e2 : QWord) (va : Nat) : ptAddress p c e2 va =
    bits e2 (p.haw - 1) 12 * 4096 +
      (if (c.enable64K p && bit e2 11) = true then 128 * nbits va 20 16 else 8 * nbits va 20 12) := by
  have offset : pte64KOffset va = 128 * nbits va 20 16 := by
    rw [pte64KOffset]
    omega
  rw [ptAddress, offset]
  rfl

/-! ### The leaf -/

section
variable {e : QWord} {a : Acc} (haw : Nat) (size : PageSize) (usePat : Bool) (va : Nat) (l : Level)

theorem legacyLeaf_null (null : bit e 9 = true) : legacyLeaf haw e size usePat va a l = nullRes := if_pos null

theorem legacyLeaf_page (mapped : bit e 9 = false) (allowed : isWrite a = false ∨ bit e 1 = true) :
    legacyLeaf haw e size usePat va a l =
      .ok (.phys (bits e (haw - 1) size.log * 2 ^ size.log + va % 2 ^ size.log) size (usePat && bit e 7) (bit e 4)
        (bit e 3)) { rw := bit e 1, xd := false, dirty := true } := by
  have check : legacyWriteCheck e a = .noFault := if_neg (by cases allowed <;> simp_all [entryRW])
  rw [legacyLeaf, if_neg (by simp [entryNull, mapped]), check]
  rfl

theorem legacyLeaf_denied (mapped : bit e 9 = false) (readOnly : bit e 1 = false) (write : isWrite a = true) :
    legacyLeaf haw e size usePat va a l = .fault .writePermission l false := by
  have check : legacyWriteCheck e a = .writePermission := if_pos (by simp [entryRW, readOnly, write])
  rw [legacyLeaf, if_neg (by simp [entryNull, mapped]), check]
end

section
variable {s : State} {e4 e3 e2 e1 : QWord} {va : Nat} (who : Option Engine) (c : Ctx) (a : Acc)

/-! ### The page table -/

/-- 4 KB or 64 KB, the entry at `ptAddress` ends the walk. -/
theorem legacyPt_eq (read : e1 = memReadQ s (ptAddress s.par c e2 va)) : legacyPt s .memory who c e2 va a =
    (if bit e1 0 then legacyLeaf s.par.haw e1 (ptSize s.par c e2) true va a .pt else .fault .notPresent .pt false, s) := by
  cases big : (c.enable64K s.par && entryIPS e2)
  all_goals
    have size : (c.enable64K s.par && bit e2 11) = _ := big
    simp only [ptAddress, big, if_true, Bool.false_eq_true, if_false] at read
    simp only [legacyPt, ptSize, size, big, readEntryPlain_uncached, ← read, entryP_eq, if_true, Bool.false_eq_true,
      if_false]
    cases bit e1 0 <;> rfl

theorem legacyPt_absent (read : e1 = memReadQ s (ptAddress s.par c e2 va)) (absent : bit e1 0 = false) :
    legacyPt s .memory who c e2 va a = (.fault .notPresent .pt false, s) := by
  rw [legacyPt_eq who c a read, if_neg (by simp [absent])]

theorem legacyPt_leaf (read : e1 = memReadQ s (ptAddress s.par c e2 va)) (present : bit e1 0 = true) :
    legacyPt s .memory who c e2 va a = (legacyLeaf s.par.haw e1 (ptSize s.par c e2) true va a .pt, s) := by
  rw [legacyPt_eq who c a read, if_pos present]

/-! ### The walk of a 32-bit context -/

theorem ppgtt32Walk_absent (hva : va < 2 ^ 32)
    (read : e2 = memReadQ s (bits (c.pdp (nbits va 31 30)) (s.par.haw - 1) 12 * 4096 + 8 * nbits va 29 21))
    (absent : bit e2 0 = false) : ppgtt32Walk s .memory who c va a = (.fault .notPresent .pd false, s) := by
  rw [ppgtt32Walk, if_neg (Nat.not_le.2 hva)]
  simp [addrField_twelve, ← read, entryP_eq, absent]

theorem ppgtt32Walk_pointer (hva : va < 2 ^ 32)
    (read : e2 = memReadQ s (bits (c.pdp (nbits va 31 30)) (s.par.haw - 1) 12 * 4096 + 8 * nbits va 29 21))
    (present : bit e2 0 = true) : ppgtt32Walk s .memory who c va a = legacyPt s .memory who c e2 va a := by
  rw [ppgtt32Walk, if_neg (Nat.not_le.2 hva)]
  simp [addrField_twelve, ← read, entryP_eq, present]

/-! ### The walk of a 48-bit context -/

section
variable (read : e2 = memReadQ s (bits e3 (s.par.haw - 1) 12 * 4096 + 8 * nbits va 29 21))
include read

theorem legacy48Pd_absent (absent : bit e2 0 = false) :
    legacy48Pd s .memory who c e3 va a = (.fault .notPresent .pd false, s) := by
  simp [legacy48Pd, addrField_twelve, ← read, entryP_eq, absent]

theorem legacy48Pd_leaf (present : bit e2 0 = true) (leaf : bit e2 7 = true) (off : s.par.gttCacheEnable = false) :
    legacy48Pd s .memory who c e3 va a = (legacyLeaf s.par.haw e2 .size2M false va a .pd, s) := by
  simp [legacy48Pd, addrField_twelve, ← read, entryP_eq, present, entryPS_eq, leaf, off]

theorem legacy48Pd_pointer (present : bit e2 0 = true) (pointer : bit e2 7 = false) :
    legacy48Pd s .memory who c e3 va a = legacyPt s .memory who c e2 va a := by
  simp [legacy48Pd, addrField_twelve, ← read, entryP_eq, present, entryPS_eq, pointer]
end

section
variable (read : e3 = memReadQ s (bits e4 (s.par.haw - 1) 12 * 4096 + 8 * nbits va 38 30))
include read

theorem legacy48Pdp_absent (absent : bit e3 0 = false) :
    legacy48Pdp s .memory who c e4 va a = (.fault .notPresent .pdp false, s) := by
  simp [legacy48Pdp, addrField_twelve, ← read, entryP_eq, absent]

theorem legacy48Pdp_leaf (present : bit e3 0 = true) (leaf : bit e3 7 = true) (off : s.par.gttCacheEnable = false) :
    legacy48Pdp s .memory who c e4 va a = (legacyLeaf s.par.haw e3 .size1G false va a .pdp, s) := by
  simp [legacy48Pdp, addrField_twelve, ← read, entryP_eq, present, entryPS_eq, leaf, off]

theorem legacy48Pdp_pointer (present : bit e3 0 = true) (pointer : bit e3 7 = false) :
    legacy48Pdp s .memory who c e4 va a = legacy48Pd s .memory who c e3 va a := by
  simp [legacy48Pdp, addrField_twelve, ← read, entryP_eq, present, entryPS_eq, pointer]
end

section
variable (hva : va < 2 ^ 48) (read : e4 = memReadQ s (bits c.pml4 (s.par.haw - 1) 12 * 4096 + 8 * nbits va 47 39))
include hva read

theorem ppgtt48Walk_absent (absent : bit e4 0 = false) :
    ppgtt48Walk s .memory who c va a = (.fault .notPresent .pml4 false, s) := by
  rw [ppgtt48Walk, if_neg (Nat.not_le.2 hva)]
  simp [addrField_twelve, ← read, entryP_eq, absent]

theorem ppgtt48Walk_pointer (present : bit e4 0 = true) :
    ppgtt48Walk s .memory who c va a = legacy48Pdp s .memory who c e4 va a := by
  rw [ppgtt48Walk, if_neg (Nat.not_le.2 hva)]
  simp [addrField_twelve, ← read, entryP_eq, present]
end
end

end Sys2Proof.Machine
end

section
/-! PROOFS. PPGTT32.WALK and PPGTT48.WALK: the page that a leaf gives, the null page, and the faults that hang the engine. -/
namespace Sys2Proof.Machine

/-! ### The operations of a legacy context -/

theorem mode_eq_advanced_iff {c : Ctx} : c.mode = .advanced ↔ c.advanced = true := by
  unfold Ctx.mode
  repeat' split
  all_goals simp_all

theorem not_advanced_of_mode {c : Ctx} {m : Mode} (mode : c.mode = m) (legacy : m ≠ .advanced) : c.advanced = false := by
  rw [← Bool.not_eq_true, ← mode_eq_advanced_iff, mode]
  exact legacy

section
variable {s : State} {e : Engine} {k : Client} {m : BitVec 6} {a : Acc} {c : Ctx}

/-- The walk operations of a legacy context ask the IOMMU nothing. -/
theorem walkRuns_legacy (legacy : c.advanced = false) (resident : (s.eng e).ctx = some c) (mocs : m.toNat < 62)
    (ready : walkWaits s (some e) = false) (pfm : pfmField s e (some m) = 0)
    (client : k.readOnly = true → isWrite a = false) : WalkRuns s e k m a c where
  resident := resident
  ready := ready
  programmed := clientProgramming_eq_none client mocs pfm (.inl legacy) (by simp [iommuRefusal, legacy])

/-- A walk that ends at a leaf answers the page, or the null page. -/
theorem answers_of_legacyLeaf {i : Instr} {leaf : QWord} {size : PageSize} {usePat : Bool} {va : Nat} {l : Level}
    {d : Option Ctx} {r : WalkReq}
    (ends : exec i s = outcome (finishWalk (legacyLeaf s.par.haw leaf size usePat va a l, s) d r)) :
    (bit leaf 9 = true → Answers i s (.xlate .nullPage)) ∧
    (bit leaf 9 = false → (isWrite a = false ∨ bit leaf 1 = true) →
      physOk s.par (bits leaf (s.par.haw - 1) size.log * 2 ^ size.log + va % 2 ^ size.log) 1 = true →
      Answers i s (.xlate (.phys (bits leaf (s.par.haw - 1) size.log * 2 ^ size.log + va % 2 ^ size.log) size
        (usePat && bit leaf 7) (bit leaf 4) (bit leaf 3)))) := by
  refine ⟨fun null => ?_, fun mapped allowed fits => ?_⟩
  · rw [Answers, ends, legacyLeaf_null _ _ _ _ _ null, nullRes, finishWalk_of_page rfl]
    rfl
  · rw [Answers, ends, legacyLeaf_page _ _ _ _ _ mapped allowed, finishWalk_of_page (x := .phys _ _ _ _ _) fits]
    rfl

/-- A walk of a legacy context that ends in a fault hangs the engine. -/
theorem hangs_of_fault (run : WalkRuns s e k m a c) (legacy : c.advanced = false) {i : Instr} {va : QWord}
    {code : FaultCode} {l : Level}
    (ends : exec i s = outcome (finishWalk (.fault code l false, s) (some c) (ctxWalkReq e k m a va))) :
    NextWith (exec i s) (fun t =>
      ∃ r : PageFault, r.code = code ∧ r.level = l ∧ r.va = va.toNat / 4096 * 4096 ∧ r.acc = a ∧ r.engine = some e ∧
        (t.eng e).run = .hung r true ∧ (t.eng e).needsReset = true ∧ (t.eng e).ctx = some c ∧
        t.out = .pageFault code l ∧ t.events.driver = s.events.driver ++ [.hangReport e r] ∧
        t.waiting = s.waiting ++ [⟨.walk ⟨some e, false, k, some m, a, va.toNat⟩, true, none⟩] ∧
        t.outstanding = s.outstanding ∧ t.mem = s.mem) := by
  have hang := finishWalk_of_hang (r := ctxWalkReq e k m a va) rfl run.resident (.inr legacy) code l false
  rw [ends, hang]
  have h := takeHang_hangsOn s e (faultOf (some e) (some c) false va.toNat a code l false) (.walk (ctxWalkReq e k m a va))
  exact ⟨_, rfl, _, rfl, rfl, rfl, rfl, rfl, h.run, h.needsReset, h.ctx.trans run.resident, h.out, h.driver, h.waiting,
    h.outstanding, h.mem⟩

theorem WalkRuns.exec_ppgtt32 (run : WalkRuns s e k m a c) (mode : c.mode = .legacy32) (va : QWord) :
    exec (.ppgtt32Walk e k m a va) s = outcome
      (finishWalk (ppgtt32Walk s .memory (some e) c va.toNat a) (some c) (ctxWalkReq e k m a va)) :=
  congrArg outcome (run.walkCtx_eq mode va)

theorem WalkRuns.exec_ppgtt48 (run : WalkRuns s e k m a c) (mode : c.mode = .legacy48) (va : QWord) :
    exec (.ppgtt48Walk e k m a va) s = outcome
      (finishWalk (ppgtt48Walk s .memory (some e) c va.toNat a) (some c) (ctxWalkReq e k m a va)) :=
  congrArg outcome (run.walkCtx_eq mode va)
end

/-! ### The page of a 32-bit walk -/

/-- Settles O20: both entries are present, so the walk ends at the page-table entry. -/
theorem ppgtt32WalkAnswersThePage : Obligations.Ppgtt32WalkAnswersThePage := by
  intro s e k m a va c e2 e1 big resident mode mocs ready pfm client hva read2 present2 hbig read1 present1
  have run : WalkRuns s e k m a c :=
    walkRuns_legacy (not_advanced_of_mode mode (by decide)) resident mocs ready pfm client
  rw [hbig, ← ptAddress_eq] at read1
  have walk := (ppgtt32Walk_pointer (some e) c a hva read2 present2).trans (legacyPt_leaf _ _ _ read1 present1)
  have ends := run.exec_ppgtt32 mode va
  rw [walk, ptSize, ← hbig] at ends
  obtain ⟨null, page⟩ := answers_of_legacyLeaf ends
  refine ⟨null, fun mapped allowed fits => ?_⟩
  replace page := page mapped allowed
  cases big
  · simpa [PageSize.log] using page fits
  · simpa [PageSize.log] using page fits

/-! ### The page of a 48-bit walk -/

/-- Settles O22: the walk ends at the first entry that is a leaf. -/
theorem ppgtt48WalkAnswersThePage : Obligations.Ppgtt48WalkAnswersThePage := by
  intro s e k m a va c e4 e3 e2 e1 big leaf size pat resident mode mocs ready pfm client hva off read4 present4 read3
    present3 read2 present2 hbig read1 present1 result
  have run : WalkRuns s e k m a c :=
    walkRuns_legacy (not_advanced_of_mode mode (by decide)) resident mocs ready pfm client
  have ends := run.exec_ppgtt48 mode va
  rw [ppgtt48Walk_pointer _ _ _ hva read4 present4] at ends
  cases leaf3 : bit e3 7
  case true =>
    rw [legacy48Pdp_leaf _ _ _ read3 present3 leaf3 off] at ends
    obtain ⟨rfl, rfl, rfl⟩ : leaf = e3 ∧ size = .size1G ∧ pat = false := by simpa [leaf3] using result
    exact answers_of_legacyLeaf ends
  replace present2 := present2 leaf3
  rw [legacy48Pdp_pointer _ _ _ read3 present3 leaf3] at ends
  cases leaf2 : bit e2 7
  case true =>
    rw [legacy48Pd_leaf _ _ _ read2 present2 leaf2 off] at ends
    obtain ⟨rfl, rfl, rfl⟩ : leaf = e2 ∧ size = .size2M ∧ pat = false := by simpa [leaf3, leaf2] using result
    exact answers_of_legacyLeaf ends
  rw [hbig, ← ptAddress_eq] at read1
  rw [legacy48Pd_pointer _ _ _ read2 present2 leaf2, legacyPt_leaf _ _ _ read1 (present1 leaf3 leaf2), ptSize,
    ← hbig] at ends
  obtain ⟨rfl, rfl, rfl⟩ : leaf = e1 ∧ size = (if big then .size64K else .size4K) ∧ pat = bit e1 7 := by
    cases big <;> simpa [leaf3, leaf2] using result
  exact answers_of_legacyLeaf ends

/-! ### The faults -/

section
variable {s : State} {who : Option Engine} {c : Ctx} {e2 e1 : QWord} {va : Nat} {a : Acc} {code : FaultCode} {l : Level}

/-- The faults at and below a page-directory entry, of a walk `W` that stands there. -/
theorem fault_of_pd {W : WalkRes × State} (read : e1 = memReadQ s (ptAddress s.par c e2 va))
    (absent : bit e2 0 = false → W = (.fault .notPresent .pd false, s))
    (present : bit e2 0 = true → W = legacyPt s .memory who c e2 va a)
    (low : (bit e2 0 = false ∧ code = .notPresent ∧ l = .pd) ∨
      (bit e2 0 = true ∧ bit e1 0 = false ∧ code = .notPresent ∧ l = .pt) ∨
      (bit e2 0 = true ∧ (bit e1 0 = true ∧ bit e1 9 = false ∧ bit e1 1 = false ∧ isWrite a = true) ∧
        code = .writePermission ∧ l = .pt)) : W = (.fault code l false, s) := by
  obtain ⟨p2, rfl, rfl⟩ | ⟨p2, p1, rfl, rfl⟩ | ⟨p2, ⟨p1, mapped, readOnly, write⟩, rfl, rfl⟩ := low
  · exact absent p2
  · rw [present p2, legacyPt_absent _ _ _ read p1]
  · rw [present p2, legacyPt_leaf _ _ _ read p1, legacyLeaf_denied _ _ _ _ _ mapped readOnly write]
end

/-- Settles O21: each entry named makes the walk end in the fault named, and the fault of a legacy context is fault and
hang. -/
theorem legacyFaultHangsTheEngine : Obligations.LegacyFaultHangsTheEngine := by
  intro s e k m a va c e4 e3 e2 e1 big code l resident mocs ready pfm client hbig read1 denied low hangs
  rw [hbig, ← ptAddress_eq] at read1
  have runs (legacy : c.advanced = false) : WalkRuns s e k m a c :=
    walkRuns_legacy legacy resident mocs ready pfm client
  refine ⟨fun mode hva read2 fault => ?bits32, fun mode hva off read4 read3 read2 fault => ?bits48⟩
  all_goals have legacy := not_advanced_of_mode mode (by decide)
  case bits32 =>
    have walk : ppgtt32Walk s .memory (some e) c va.toNat a = (.fault code l false, s) :=
      fault_of_pd read1 (ppgtt32Walk_absent _ _ _ hva read2) (ppgtt32Walk_pointer _ _ _ hva read2) fault
    exact hangs_of_fault (runs legacy) legacy (walk ▸ (runs legacy).exec_ppgtt32 mode va)
  case bits48 =>
    suffices walk : ppgtt48Walk s .memory (some e) c va.toNat a = (.fault code l false, s) from
      hangs_of_fault (runs legacy) legacy (walk ▸ (runs legacy).exec_ppgtt48 mode va)
    have below4 := ppgtt48Walk_pointer (some e) c a hva read4
    obtain ⟨p4, rfl, rfl⟩ | ⟨p4, p3, rfl, rfl⟩ | ⟨p4, leaf3, ⟨p3, mapped, readOnly, write⟩, rfl, rfl⟩ |
      ⟨p4, p3, pointer3, leaf2, ⟨p2, mapped, readOnly, write⟩, rfl, rfl⟩ | ⟨p4, p3, pointer3, pointer2, fault⟩ := fault
    · exact ppgtt48Walk_absent _ _ _ hva read4 p4
    · rw [below4 p4, legacy48Pdp_absent _ _ _ read3 p3]
    · rw [below4 p4, legacy48Pdp_leaf _ _ _ read3 p3 leaf3 off, legacyLeaf_denied _ _ _ _ _ mapped readOnly write]
    · rw [below4 p4, legacy48Pdp_pointer _ _ _ read3 p3 pointer3, legacy48Pd_leaf _ _ _ read2 p2 leaf2 off,
        legacyLeaf_denied _ _ _ _ _ mapped readOnly write]
    · rw [below4 p4, legacy48Pdp_pointer _ _ _ read3 p3 pointer3]
      exact fault_of_pd read1 (legacy48Pd_absent _ _ _ read2) (fun p2 => legacy48Pd_pointer _ _ _ read2 p2 (pointer2 p2))
        fault

end Sys2Proof.Machine
end

section
/-! SUPPORT. IA32E.WALK: the rights of an entry, what setting its Accessed and Dirty flags leaves of it, and the walk level
by level, for any way of reading an entry that changes no more than those flags. -/
namespace Sys2Proof.Machine

/-! ### Rights -/

/-- An entry that grants an access what it asks for (R590, R600), with none of the bits `reserved` set. -/
structure EntryGrants (q : RightsCtl) (reserved : Nat) (e : QWord) : Prop where
  present : bit e 0 = true
  writable : q.w = true → bit e 1 = true
  user : bit e 2 = true
  executable : q.fetch = true → q.nxe = true → bit e 63 = false
  clear : e.toNat &&& reserved = 0

/-- Rights accumulated over entries that all grant the access. -/
structure RightsGrant (q : RightsCtl) (r : Rights) : Prop where
  writable : q.w = true → r.rw = true
  user : r.us = true
  executable : q.fetch = true → q.nxe = true → r.xd = false

theorem RightsGrant.start (q : RightsCtl) : RightsGrant q .start := ⟨fun _ => rfl, rfl, fun _ _ => rfl⟩

/-- The rights stay granted below an entry that grants them. -/
theorem RightsGrant.fold {q : RightsCtl} {r : Rights} {reserved : Nat} {e : QWord} (rights : RightsGrant q r)
    (grants : EntryGrants q reserved e) : RightsGrant q (r.fold e) where
  writable w := by simp [Rights.fold, rights.writable w, entryRW, grants.writable w]
  user := by simp [Rights.fold, rights.user, entryUS, grants.user]
  executable x n := by simp [Rights.fold, rights.executable x n, entryXD, grants.executable x n]

theorem RightsGrant.soFar {q : RightsCtl} {r : Rights} (rights : RightsGrant q r) : rightsSoFar q r = .noFault := by
  have user := rights.user
  have executable := rights.executable
  have writable := rights.writable
  simp only [rightsSoFar]
  grind

/-- `Check` of R578 passes an entry that grants the access. -/
theorem checkEntry_of_grants {q : RightsCtl} {r : Rights} {reserved : Nat} {e : QWord} (rights : RightsGrant q r)
    (grants : EntryGrants q reserved e) : checkEntry q r reserved e = (.noFault, r.fold e) := by
  have soFar := (rights.fold grants).soFar
  simp [checkEntry, entryP, grants.present, grants.clear, soFar]

/-! ### The flags of an entry -/

/-- The two values differ in nothing but Accessed, Dirty and Extended-Accessed. -/
def SameButFlags (e e' : QWord) : Prop :=
  ∀ i, i ≠ 5 → i ≠ 6 → i ≠ 10 → e'.toNat.testBit i = e.toNat.testBit i

theorem SameButFlags.refl (e : QWord) : SameButFlags e e := fun _ _ _ _ => rfl

theorem bit_eq_testBit {w : Nat} (v : BitVec w) (i : Nat) : bit v i = v.toNat.testBit i := by
  rw [bit, Nat.testBit_eq_decide_div_mod_eq, Nat.shiftRight_eq_div_pow]
  rfl

theorem testBit_bits {w : Nat} (v : BitVec w) (hi lo i : Nat) :
    (bits v hi lo).testBit i = (decide (i < hi + 1 - lo) && v.toNat.testBit (lo + i)) := by
  rw [bits, Nat.testBit_mod_two_pow, Nat.testBit_shiftRight]

theorem testBit_maskOf (lo hi i : Nat) : (maskOf lo hi).testBit i = (decide (lo ≤ i) && decide (i ≤ hi)) := by
  rw [maskOf, Nat.testBit_shiftLeft, Nat.testBit_two_pow_sub_one]
  grind

section
variable {e e' : QWord} (same : SameButFlags e e')
include same

theorem SameButFlags.bit {i : Nat} (h : i ≠ 5 ∧ i ≠ 6 ∧ i ≠ 10) : bit e' i = bit e i := by
  rw [bit_eq_testBit, bit_eq_testBit, same i h.1 h.2.1 h.2.2]

theorem SameButFlags.bits {hi lo : Nat} (h : 11 ≤ lo) : bits e' hi lo = bits e hi lo := by
  apply Nat.eq_of_testBit_eq
  intro i
  rw [testBit_bits, testBit_bits, same _ (by omega) (by omega) (by omega)]

/-- Reserved bits above the flags. -/
theorem SameButFlags.clear {reserved : Nat} (h5 : reserved.testBit 5 = false) (h6 : reserved.testBit 6 = false)
    (h10 : reserved.testBit 10 = false) : e'.toNat &&& reserved = e.toNat &&& reserved := by
  apply Nat.eq_of_testBit_eq
  intro i
  rw [Nat.testBit_and, Nat.testBit_and]
  by_cases flag : i = 5 ∨ i = 6 ∨ i = 10
  · obtain rfl | rfl | rfl := flag <;> simp [h5, h6, h10]
  · rw [same i (by omega) (by omega) (by omega)]

theorem SameButFlags.ptAddress (p : Params) (c : Ctx) (va : Nat) : ptAddress p c e' va = ptAddress p c e va := by
  rw [ptAddress_eq, ptAddress_eq, same.bits (by decide), same.bit (by decide)]
end

end Sys2Proof.Machine
end

section
/-! SUPPORT. IA32E.WALK level by level. -/
namespace Sys2Proof.Machine

/-- A read of the walk at `a` gives the value `e'`, an entry that grants the access and is `e` but for its flags, and leaves
the state `t`. -/
structure ReadsEntry (s : State) (c : Ctx) (q : RightsCtl) (a : Nat) (k : EntryKind) (reserved : Nat) (e e' : QWord)
    (t : State) : Prop where
  same : SameButFlags e e'
  grants : EntryGrants q reserved e'
  read : ∀ who parent, readEntryIa s .memory who c q parent a k = (some e', t)

/-- The page that a leaf gives (R578). -/
def pageOf (haw : Nat) (leaf : QWord) (size : PageSize) (pat : Bool) (va : Nat) : Xlate :=
  .phys (bits leaf (haw - 1) size.log * 2 ^ size.log + va % 2 ^ size.log) size pat (bit leaf 4) (bit leaf 3)

/-- A walk ends in state `t` with a translation. -/
def EndsWith (w : WalkRes × State) (x : Xlate) (t : State) : Prop := ∃ attr, w = (.ok x attr, t)

/-- No supervisor fetches under SMEP (R600). -/
def FetchAllowed (q : RightsCtl) : Prop := q.fetch = true → q.supervisor = true → q.smep = true → False

theorem rightsFinal_of_fetchAllowed {q : RightsCtl} (allowed : FetchAllowed q) (r : Rights) :
    rightsFinal q r = .noFault := by
  apply if_neg
  simp only [Bool.and_eq_true]
  rintro ⟨⟨⟨fetch, supervisor⟩, smep⟩, -⟩
  exact allowed fetch supervisor smep

theorem PageSize.eleven_le_log (z : PageSize) : 11 ≤ z.log := by cases z <;> decide

theorem iaLeaf_endsWith {q : RightsCtl} {e e' : QWord} (allowed : FetchAllowed q) (same : SameButFlags e e') (haw : Nat)
    (r : Rights) (size : PageSize) (pat : Bool) (va : Nat) (l : Level) (t : State) :
    EndsWith (iaLeaf haw q r e' size pat va l, t) (pageOf haw e size pat va) t := by
  refine ⟨{ rw := r.rw, xd := r.xd, dirty := entryD e' }, ?_⟩
  rw [iaLeaf, rightsFinal_of_fetchAllowed allowed, pageOf, addrField, entryPCD, entryPWT,
    same.bits size.eleven_le_log, same.bit (by decide), same.bit (by decide)]

section
variable {s t u : State} {c : Ctx} {q : RightsCtl} {r : Rights} {e4 e4' e3 e3' e2 e2' e1 e1' : QWord} {va : Nat}
  {x : Xlate} {p : Params} (who : Option Engine)

theorem iaPt_leaf (par : s.par = p) (allowed : FetchAllowed q) (rights : RightsGrant q r) (above : SameButFlags e2 e2')
    (entry : ReadsEntry s c q (ptAddress p c e2 va) .leaf
      (maskOf p.haw 51 ||| if (c.enable64K p && bit e2 11) = true then maskOf 12 15 else 0) e1 e1' t) :
    EndsWith (iaPt s .memory who c q r e2' va) (pageOf p.haw e1 (ptSize p c e2) (bit e1 7) va) t := by
  subst par
  have ips : entryIPS e2' = bit e2 11 := above.bit (by decide)
  have read := entry.read who (parentIndex e2')
  rw [← above.ptAddress] at read
  have check := checkEntry_of_grants rights entry.grants
  have pat : entryPS e1' = bit e1 7 := entry.same.bit (by decide)
  simp only [ptAddress, ips] at read
  simp only [iaPt, read, ips, reservedHaw, check, ne_eq, not_true_eq_false, if_false, pat]
  exact iaLeaf_endsWith allowed entry.same _ _ _ _ _ _ _

/-- A level whose entries are pointers or, with bit 7, leaves of `size`: the page directory and the level above it. -/
def iaEither (s : State) (who : Option Engine) (c : Ctx) (q : RightsCtl) (r : Rights) (parent addr reserved : Nat)
    (size : PageSize) (l : Level) (va : Nat) (below : State → Rights → QWord → WalkRes × State) : WalkRes × State :=
  match readEntryIa s .memory who c q parent addr .either with
  | (none, s1) => (.error .adUpdateNonWB, s1)
  | (some e, s1) =>
    if entryP e && entryPS e then
      let k := checkEntry q r (reservedHaw s.par.haw ||| reserved) e
      if k.1 ≠ .noFault then (.fault k.1 l (usFault q k), s1)
      else (iaLeaf s.par.haw q k.2 e size (bit e 12) va l, s1)
    else
      let k := checkEntry q r (reservedHaw s.par.haw) e
      if k.1 ≠ .noFault then (.fault k.1 l (usFault q k), s1)
      else below s1 k.2 e

theorem iaPd_eq_iaEither : iaPd s .memory who c q r e3 va =
    iaEither s who c q r (parentIndex e3) (bits e3 (s.par.haw - 1) 12 * 4096 + 8 * nbits va 29 21) (maskOf 13 20) .size2M
      .pd va (fun t r' e => iaPt t .memory who c q r' e va) := rfl

theorem iaPdp_eq_iaEither : iaPdp s .memory who c q r e4 va =
    iaEither s who c q r (parentIndex e4) (bits e4 (s.par.haw - 1) 12 * 4096 + 8 * nbits va 38 30) (maskOf 13 29) .size1G
      .pdp va (fun t r' e => iaPd t .memory who c q r' e va) := rfl

section
variable {parent addr reserved : Nat} {size : PageSize} {l : Level} {next : State → Rights → QWord → WalkRes × State}
  {e e' : QWord} (par : s.par = p) (rights : RightsGrant q r)
include par rights

theorem iaEither_leaf (allowed : FetchAllowed q)
    (entry : ReadsEntry s c q addr .either (maskOf p.haw 51 ||| reserved) e e' t) (leaf : bit e 7 = true) :
    EndsWith (iaEither s who c q r parent addr reserved size l va next) (pageOf p.haw e size (bit e 12) va) t := by
  subst par
  have read := entry.read who parent
  have check := checkEntry_of_grants rights entry.grants
  have ps : (entryP e' && entryPS e') = true := by
    simp [entryP_eq, entryPS_eq, entry.grants.present, entry.same.bit (i := 7) (by decide), leaf]
  have pat : bit e' 12 = bit e 12 := entry.same.bit (by decide)
  simp only [iaEither, read, reservedHaw, ps, check, ne_eq, not_true_eq_false, if_true, if_false, pat]
  exact iaLeaf_endsWith allowed entry.same _ _ _ _ _ _ _

theorem iaEither_pointer (entry : ReadsEntry s c q addr .either (maskOf p.haw 51) e e' t)
    (pointer : bit e 7 = false) (below : ∀ r', RightsGrant q r' → EndsWith (next t r' e') x u) :
    EndsWith (iaEither s who c q r parent addr reserved size l va next) x u := by
  subst par
  have read := entry.read who parent
  have check := checkEntry_of_grants rights entry.grants
  have ps : (entryP e' && entryPS e') = false := by
    simp [entryPS_eq, entry.same.bit (i := 7) (by decide), pointer]
  simp only [iaEither, read, reservedHaw, ps, check, ne_eq, not_true_eq_false, Bool.false_eq_true, if_false]
  exact below _ (rights.fold entry.grants)
end

section
variable (par : s.par = p) (rights : RightsGrant q r) (above : SameButFlags e3 e3')
include par rights above

theorem iaPd_leaf (allowed : FetchAllowed q)
    (entry : ReadsEntry s c q (bits e3 (p.haw - 1) 12 * 4096 + 8 * nbits va 29 21) .either
      (maskOf p.haw 51 ||| maskOf 13 20) e2 e2' t) (leaf : bit e2 7 = true) :
    EndsWith (iaPd s .memory who c q r e3' va) (pageOf p.haw e2 .size2M (bit e2 12) va) t := by
  subst par
  rw [iaPd_eq_iaEither, above.bits (by decide)]
  exact iaEither_leaf who rfl rights allowed entry leaf

theorem iaPd_pointer (entry : ReadsEntry s c q (bits e3 (p.haw - 1) 12 * 4096 + 8 * nbits va 29 21) .either
      (maskOf p.haw 51) e2 e2' t) (pointer : bit e2 7 = false)
    (below : ∀ r', RightsGrant q r' → EndsWith (iaPt t .memory who c q r' e2' va) x u) :
    EndsWith (iaPd s .memory who c q r e3' va) x u := by
  subst par
  rw [iaPd_eq_iaEither, above.bits (by decide)]
  exact iaEither_pointer who rfl rights entry pointer below
end

section
variable (par : s.par = p) (rights : RightsGrant q r) (above : SameButFlags e4 e4')
include par rights above

theorem iaPdp_leaf (allowed : FetchAllowed q)
    (entry : ReadsEntry s c q (bits e4 (p.haw - 1) 12 * 4096 + 8 * nbits va 38 30) .either
      (maskOf p.haw 51 ||| maskOf 13 29) e3 e3' t) (leaf : bit e3 7 = true) :
    EndsWith (iaPdp s .memory who c q r e4' va) (pageOf p.haw e3 .size1G (bit e3 12) va) t := by
  subst par
  rw [iaPdp_eq_iaEither, above.bits (by decide)]
  exact iaEither_leaf who rfl rights allowed entry leaf

theorem iaPdp_pointer (entry : ReadsEntry s c q (bits e4 (p.haw - 1) 12 * 4096 + 8 * nbits va 38 30) .either
      (maskOf p.haw 51) e3 e3' t) (pointer : bit e3 7 = false)
    (below : ∀ r', RightsGrant q r' → EndsWith (iaPd t .memory who c q r' e3' va) x u) :
    EndsWith (iaPdp s .memory who c q r e4' va) x u := by
  subst par
  rw [iaPdp_eq_iaEither, above.bits (by decide)]
  exact iaEither_pointer who rfl rights entry pointer below
end

theorem ia32eWalk_pointer {a : Acc} (par : s.par = p) (hva : va < 2 ^ 48) (off : p.gttCacheEnable = false)
    (entry : ReadsEntry s c (rightsCtl c a) (bits c.pml4 (p.haw - 1) 12 * 4096 + 8 * nbits va 47 39) .pml4
      (maskOf p.haw 51 ||| maskOf 7 7) e4 e4' t)
    (below : ∀ r', RightsGrant (rightsCtl c a) r' → EndsWith (iaPdp t .memory who c (rightsCtl c a) r' e4' va) x u) :
    EndsWith (ia32eWalk s .memory who c va a) x u := by
  subst par
  have start := RightsGrant.start (rightsCtl c a)
  have read := entry.read who (parentIndex c.pml4)
  have check := checkEntry_of_grants start entry.grants
  have inside : ¬ va ≥ 2 ^ 48 := Nat.not_le.2 hva
  simp only [ia32eWalk, inside, off, addrField_twelve, read, reservedHaw, check, ne_eq, not_true_eq_false,
    Bool.false_eq_true, if_false]
  exact below _ (start.fold entry.grants)
end

/-! ### The operation -/

section
variable {s t : State} {e : Engine} {k : Client} {m : BitVec 6} {a : Acc} {c : Ctx} {va : QWord} {x : Xlate}

/-- IA32E.WALK answers what its walk ends with, in the state that the walk leaves. -/
theorem WalkRuns.exec_ia32e (run : WalkRuns s e k m a c) (mode : c.mode = .advanced)
    (walk : EndsWith (ia32eWalk s .memory (some e) c va.toNat a) x t) (fits : xlateOk t.par x = true) :
    exec (.ia32eWalk e k m a va) s = .next { t with out := .xlate x } := by
  obtain ⟨attr, walk⟩ := walk
  calc exec (.ia32eWalk e k m a va) s
      = outcome (finishWalk (ia32eWalk s .memory (some e) c va.toNat a) (some c) (ctxWalkReq e k m a va)) :=
        congrArg outcome (run.walkCtx_eq mode va)
    _ = .next { t with out := .xlate x } := by
        rw [walk, finishWalk_of_page fits]
        rfl

/-- A fetch whose right to execute is checked (R111). -/
theorem fetch_of_rightsCtl (h : (rightsCtl c a).fetch = true) : a = .fetch ∧ c.iommu.ere = true := by
  simp only [rightsCtl, Bool.and_eq_true] at h
  refine ⟨?_, h.2⟩
  cases a
  case fetch => rfl
  all_goals cases h.1

/-- The statements' condition on a fetch: SMEP does not forbid it. -/
theorem fetchAllowed_rightsCtl
    (h : a = .fetch → c.iommu.ere = true → c.supervisor = false ∨ c.iommu.sre = false ∨ c.iommu.smep = false) :
    FetchAllowed (rightsCtl c a) := by
  intro fetch supervisor smep
  obtain ⟨isFetch, ere⟩ := fetch_of_rightsCtl fetch
  simp only [rightsCtl, Bool.and_eq_true] at supervisor smep
  obtain off | off | off := h isFetch ere
  · simp [off] at supervisor
  · simp [off] at supervisor
  · simp [off] at smep
end

end Sys2Proof.Machine
end

section
/-! PROOFS. IA32E.WALK without the management of Accessed and Dirty flags: the page it answers. -/
namespace Sys2Proof.Machine

/-- Without A/D management a read of memory gives the entry as it is, and changes nothing. -/
theorem readsEntry_plain {s : State} {c : Ctx} {q : RightsCtl} {a reserved : Nat} {e : QWord} (plain : c.adEnable = false)
    (k : EntryKind) (read : e = memReadQ s a) (grants : EntryGrants q reserved e) :
    ReadsEntry s c q a k reserved e e s where
  same := .refl e
  grants := grants
  read _ _ := by rw [readEntryIa_uncached _ _ _ _ _ _ _ plain, read]

/-- Settles O23: every entry read grants the access, so the walk goes down to the first leaf. -/
theorem ia32eWalkAnswersThePage : Obligations.Ia32eWalkAnswersThePage := by
  intro s e k m a va c e4 e3 e2 e1 big leaf size pat resident mode plain iommu mocs ready pfm client coherent fetch hva off
    read4 present4 writable4 user4 clear4 read3 present3 writable3 user3 clear3 read2 grants2 hbig read1 grants1 result fits
  have run : WalkRuns s e k m a c :=
    ⟨resident, ready, clientProgramming_eq_none client mocs pfm (.inr coherent) iommu⟩
  have allowed : FetchAllowed (rightsCtl c a) := fetchAllowed_rightsCtl fun isFetch ere => (fetch isFetch ere).2
  have executable (checked : (rightsCtl c a).fetch = true) (nxe : (rightsCtl c a).nxe = true) :=
    (fetch (fetch_of_rightsCtl checked).1 (fetch_of_rightsCtl checked).2).1 nxe
  suffices walk : EndsWith (ia32eWalk s .memory (some e) c va.toNat a) (pageOf s.par.haw leaf size pat va.toNat) s from
    run.exec_ia32e mode walk fits
  refine ia32eWalk_pointer (some e) rfl hva off (readsEntry_plain plain _ read4
    ⟨present4, writable4, user4, fun f n => (executable f n).1, clear4⟩) fun r4 rights4 => ?_
  have grants3 : EntryGrants (rightsCtl c a) _ e3 :=
    ⟨present3, writable3, user3, fun f n => (executable f n).2.1, clear3⟩
  cases leaf3 : bit e3 7
  case true =>
    obtain ⟨rfl, rfl, rfl⟩ : leaf = e3 ∧ size = .size1G ∧ pat = bit e3 12 := by simpa [leaf3] using result
    rw [leaf3] at grants3
    exact iaPdp_leaf (some e) rfl rights4 (.refl e4) allowed (readsEntry_plain plain _ read3 grants3) leaf3
  simp only [leaf3, Bool.false_eq_true, if_false, Nat.or_zero] at grants3
  refine iaPdp_pointer (some e) rfl rights4 (.refl e4) (readsEntry_plain plain _ read3 grants3) leaf3
    fun r3 rights3 => ?_
  obtain ⟨present2, writable2, user2, clear2⟩ := grants2 leaf3
  replace grants2 : EntryGrants (rightsCtl c a) _ e2 :=
    ⟨present2, writable2, user2, fun f n => ((executable f n).2.2 leaf3).1, clear2⟩
  cases leaf2 : bit e2 7
  case true =>
    obtain ⟨rfl, rfl, rfl⟩ : leaf = e2 ∧ size = .size2M ∧ pat = bit e2 12 := by simpa [leaf3, leaf2] using result
    rw [leaf2] at grants2
    exact iaPd_leaf (some e) rfl rights3 (.refl e3) allowed (readsEntry_plain plain _ read2 grants2) leaf2
  simp only [leaf2, Bool.false_eq_true, if_false, Nat.or_zero] at grants2
  refine iaPd_pointer (some e) rfl rights3 (.refl e3) (readsEntry_plain plain _ read2 grants2) leaf2
    fun r2 rights2 => ?_
  obtain ⟨present1, writable1, user1, clear1⟩ := grants1 leaf3 leaf2
  have reads1 : ReadsEntry s c (rightsCtl c a) _ .leaf _ e1 e1 s := readsEntry_plain plain _ read1
    ⟨present1, writable1, user1, fun f n => ((executable f n).2.2 leaf3).2 leaf2, clear1⟩
  obtain ⟨rfl, rfl, rfl⟩ : leaf = e1 ∧ size = (if big then .size64K else .size4K) ∧ pat = bit e1 7 := by
    cases big <;> simpa [leaf3, leaf2] using result
  rw [hbig, ← ptAddress_eq] at reads1
  rw [hbig]
  exact iaPt_leaf (some e) rfl allowed rights2 (.refl e2) reads1

end Sys2Proof.Machine
end

section
/-! PROOFS. IA32E.WALK with the management of Accessed and Dirty flags: what its updates leave of memory, and the page it
answers. -/
namespace Sys2Proof.Machine

/-! ### The update of an entry -/

/-- The flags that a walk sets in an entry: Accessed, Extended-Accessed if enabled, and in a leaf that is written Dirty
(R752). -/
def marks (q : RightsCtl) (leaf : Bool) : QWord :=
  (if q.ea then 0x420 else 0x20) ||| (if q.w && leaf then 0x40 else 0)

/-- The update of an entry that grants the access. -/
theorem pageUpdate_of_grants {q : RightsCtl} {reserved : Nat} {e : QWord} (grants : EntryGrants q reserved e)
    (pointer : Bool) : pageUpdate pointer q.wp q.ea q.w e = e ||| marks q (!pointer || bit e 7) := by
  have allowed : (q.w && q.wp && !bit e 1) = false := by
    cases w : q.w
    · rfl
    · simp [grants.writable w]
  have mask : pageUpdateMask pointer q.wp q.ea q.w e = marks q (!pointer || bit e 7) := by
    simp only [pageUpdateMask, entryP, entryRW, entryPS, grants.present, allowed, marks, flagA, flagEA, flagD]
    cases q.ea <;> simp
  rw [pageUpdate, mask]

/-- No bit but 5, 6 and 10 is one of the flags. -/
theorem testBit_marks (q : RightsCtl) (leaf : Bool) {i : Nat} (h5 : i ≠ 5) (h6 : i ≠ 6) (h10 : i ≠ 10) :
    (marks q leaf).toNat.testBit i = false := by
  have small : ∀ j < 11, j ≠ 5 → j ≠ 6 → j ≠ 10 → (marks q leaf).toNat.testBit j = false := by
    unfold marks
    cases q.ea <;> cases (q.w && leaf) <;> decide
  have bound : (marks q leaf).toNat < 2 ^ 11 := by
    unfold marks
    cases q.ea <;> cases (q.w && leaf) <;> decide
  by_cases low : i < 11
  · exact small i low h5 h6 h10
  · exact Nat.testBit_lt_two_pow (lt_of_lt_of_le bound (Nat.pow_le_pow_right (by decide) (by omega)))

theorem sameButFlags_marks (e : QWord) (q : RightsCtl) (leaf : Bool) : SameButFlags e (e ||| marks q leaf) := by
  intro i h5 h6 h10
  rw [BitVec.toNat_or, Nat.testBit_or, testBit_marks q leaf h5 h6 h10, Bool.or_false]

/-- None of the flags is among these bits. -/
def NoFlags (reserved : Nat) : Prop :=
  reserved.testBit 5 = false ∧ reserved.testBit 6 = false ∧ reserved.testBit 10 = false

theorem NoFlags.or {m n : Nat} (hm : NoFlags m) (hn : NoFlags n) : NoFlags (m ||| n) := by
  obtain ⟨m5, m6, m10⟩ := hm
  obtain ⟨n5, n6, n10⟩ := hn
  simp [NoFlags, Nat.testBit_or, *]

theorem noFlags_maskOf {lo : Nat} (h : 11 ≤ lo) (hi : Nat) : NoFlags (maskOf lo hi) := by
  simp only [NoFlags, testBit_maskOf]
  grind

theorem noFlags_maskOf_seven : NoFlags (maskOf 7 7) := ⟨rfl, rfl, rfl⟩

/-- The reserved bits of a page-table entry: of a 64 KB page 12 to 15. -/
theorem noFlags_pte (big : Bool) : NoFlags (if big = true then maskOf 12 15 else 0) := by
  cases big
  · exact ⟨rfl, rfl, rfl⟩
  · exact noFlags_maskOf (by decide) 15

/-- An entry with the flags set grants the access as before. -/
theorem EntryGrants.of_same {q : RightsCtl} {reserved : Nat} {e e' : QWord} (grants : EntryGrants q reserved e)
    (same : SameButFlags e e') (noFlags : NoFlags reserved) : EntryGrants q reserved e' where
  present := (same.bit (by decide)).trans grants.present
  writable w := (same.bit (by decide)).trans (grants.writable w)
  user := (same.bit (by decide)).trans grants.user
  executable f n := (same.bit (by decide)).trans (grants.executable f n)
  clear := (same.clear noFlags.1 noFlags.2.1 noFlags.2.2).trans grants.clear

/-! ### The entries updated so far -/

/-- From `s` to `t` the QWords listed have had the flags beside them set; every other byte reads as before, and nothing but
memory, and the record of what it held before, has changed. -/
structure Marked (s t : State) (done : List (Nat × QWord)) : Prop where
  frame : t = { s with mem := t.mem, oldBytes := t.oldBytes }
  wf : Memory.wf t.mem = true
  aligned : ∀ p ∈ done, p.1 % 8 = 0
  marked : ∀ p ∈ done, memReadQ t p.1 = memReadQ s p.1 ||| p.2
  outside : ∀ x, (∀ p ∈ done, x < p.1 ∨ p.1 + 8 ≤ x) → Memory.read t.mem x = Memory.read s.mem x

theorem Marked.refl {s : State} (wf : Memory.wf s.mem = true) : Marked s s [] := ⟨rfl, wf, nofun, nofun, fun _ _ => rfl⟩

/-- A QWord whose bytes read the same. -/
theorem memReadQ_of_reads {s t : State} {a : Nat}
    (h : ∀ x, a ≤ x → x < a + 8 → Memory.read t.mem x = Memory.read s.mem x) : memReadQ t a = memReadQ s a := by
  rw [memReadQ, memRead, Memory.readBytes_congr h]
  rfl

section
variable {s t : State} {done : List (Nat × QWord)} (m : Marked s t done) {a : Nat}
include m

theorem Marked.par : t.par = s.par := by
  rw [m.frame]

/-- An aligned QWord that is not listed lies outside every listed one. -/
theorem Marked.disjoint (aligned : a % 8 = 0) (fresh : a ∉ done.map Prod.fst) :
    ∀ p ∈ done, a + 8 ≤ p.1 ∨ p.1 + 8 ≤ a := by
  intro p listed
  have aligned' := m.aligned p listed
  have other : p.1 ≠ a := fun same => fresh (same ▸ List.mem_map_of_mem listed)
  omega

theorem Marked.memReadQ_other (aligned : a % 8 = 0) (fresh : a ∉ done.map Prod.fst) : memReadQ t a = memReadQ s a := by
  refine memReadQ_of_reads fun x low high => m.outside x fun p listed => ?_
  have apart := m.disjoint aligned fresh p listed
  omega

/-- One more read-modify-write that sets flags. -/
theorem Marked.concat (aligned : a % 8 = 0) (fresh : a ∉ done.map Prod.fst) {f : QWord → QWord} {flags : QWord}
    (update : f (memReadQ s a) = memReadQ s a ||| flags) : Marked s (atomicRmwQ t a f).2 (done ++ [(a, flags)]) := by
  obtain ⟨-, new, outside, frame, wf⟩ := atomicRmwQ_spec m.wf a f
  generalize (atomicRmwQ t a f).2 = u at new outside frame wf
  refine ⟨?frame, wf, ?aligned, ?marked, ?outside⟩
  case frame =>
    calc u = { t with mem := u.mem, oldBytes := u.oldBytes } := frame
      _ = { s with mem := u.mem, oldBytes := u.oldBytes } :=
        congrArg (fun v : State => { v with mem := u.mem, oldBytes := u.oldBytes }) m.frame
  case aligned =>
    simpa [or_imp, forall_and, aligned] using m.aligned
  case marked =>
    intro p listed
    rcases List.mem_append.1 listed with earlier | last
    · rw [← m.marked p earlier]
      refine memReadQ_of_reads fun x low high => outside x ?_
      have apart := m.disjoint aligned fresh p earlier
      omega
    · obtain rfl := List.mem_singleton.1 last
      rw [new, m.memReadQ_other aligned fresh, update]
  case outside =>
    intro x apart
    rw [outside x (apart (a, flags) (by simp)), m.outside x fun p listed => apart p (List.mem_append_left _ listed)]
end

/-- What has become of the pointers, of the leaf, and of every other byte. -/
theorem Marked.entries {s t : State} {ptrs : List Nat} {al : Nat} {f g : QWord}
    (m : Marked s t (ptrs.map (·, f) ++ [(al, g)])) : (∀ b ∈ ptrs, memReadQ t b = memReadQ s b ||| f) ∧
      memReadQ t al = memReadQ s al ||| g ∧
      ∀ x, (∀ b ∈ al :: ptrs, x < b ∨ b + 8 ≤ x) → Memory.read t.mem x = Memory.read s.mem x := by
  refine ⟨fun b listed => m.marked (b, f) (by simp [listed]), m.marked (al, g) (by simp), fun x apart => ?_⟩
  refine m.outside x fun p listed => apart p.1 ?_
  simp only [List.mem_append, List.mem_map, List.mem_singleton] at listed
  obtain ⟨b, pointer, rfl⟩ | rfl := listed
  · exact List.mem_cons_of_mem _ pointer
  · exact List.mem_cons_self

/-! ### The reads of the walk -/

/-- A context that keeps Accessed and Dirty flags, in write-back memory. -/
structure KeepsFlags (s : State) (c : Ctx) : Prop where
  manages : c.adEnable = true
  types : s.par.effTypes = []
  caching : s.par.cd = false

/-- Then a read of the walk is the atomic of R752. -/
theorem KeepsFlags.readEntryIa_eq {s : State} {c : Ctx} (keeps : KeepsFlags s c) (who : Option Engine) (q : RightsCtl)
    (parent a : Nat) (k : EntryKind) : readEntryIa s .memory who c q parent a k =
      (some (pageUpdate (k != .leaf) q.wp q.ea q.w (memReadQ s a)),
        (atomicRmwQ s a (pageUpdate (k != .leaf) q.wp q.ea q.w)).2) := by
  have writeBack : effectiveMemType s.par parent a = .wb := by
    simp [effectiveMemType, keeps.types, keeps.caching, typeFromRanges]
  have atomic : readEntryIa s .memory who c q parent a k = readEntryAD s .memory who q parent a (k != .leaf) := by
    simp only [readEntryIa, keeps.manages, if_true]
    split <;> simp_all
  rw [atomic, readEntryAD, writeBack]
  rfl

/-- A read of an entry that has not been updated yet sets its flags. -/
theorem KeepsFlags.reads {s t : State} {c : Ctx} {q : RightsCtl} {done : List (Nat × QWord)} {a reserved : Nat}
    {e : QWord} (keeps : KeepsFlags s c) (m : Marked s t done) (read : e = memReadQ s a) (aligned : a % 8 = 0)
    (fresh : a ∉ done.map Prod.fst) (grants : EntryGrants q reserved e) (noFlags : NoFlags reserved) (k : EntryKind)
    {leaf : Bool} (isLeaf : (k == .leaf || bit e 7) = leaf) :
    ∃ e' u, ReadsEntry t c q a k reserved e e' u ∧ Marked s u (done ++ [(a, marks q leaf)]) := by
  have kind : (!(k != .leaf) || bit e 7) = leaf := by rw [bne, Bool.not_not, isLeaf]
  have update := pageUpdate_of_grants grants (k != .leaf)
  rw [kind] at update
  have same := sameButFlags_marks e q leaf
  have keeps' : KeepsFlags t c := ⟨keeps.manages, m.par ▸ keeps.types, m.par ▸ keeps.caching⟩
  refine ⟨e ||| marks q leaf, _, ⟨same, grants.of_same same noFlags, fun who parent => ?_⟩,
    m.concat aligned fresh (f := pageUpdate (k != .leaf) q.wp q.ea q.w) (by rw [← read, update])⟩
  rw [keeps'.readEntryIa_eq, m.memReadQ_other aligned fresh, ← read, update]

theorem and_or_eq_zero {x m n : Nat} (hm : x &&& m = 0) (hn : x &&& n = 0) : x &&& (m ||| n) = 0 := by
  rw [Nat.and_or_distrib_left, hm, hn, Nat.or_zero]

/-- Bit 7 alone as a reserved bit: that of a PML4 entry. -/
theorem and_maskOf_seven {e : QWord} (clear : bit e 7 = false) : e.toNat &&& maskOf 7 7 = 0 := by
  apply Nat.eq_of_testBit_eq
  intro i
  rw [Nat.testBit_and, testBit_maskOf, Nat.zero_testBit]
  rw [bit_eq_testBit] at clear
  by_cases seven : i = 7
  · simp [seven, clear]
  · grind

/-- What lets a walk of `va` keep the flags of the entries it reads. -/
structure FlagWalk (s : State) (c : Ctx) (a : Acc) (va : Nat) : Prop where
  keeps : KeepsFlags s c
  canonical : Inv s
  width : 13 ≤ s.par.haw
  range : va < 2 ^ 48
  cacheOff : s.par.gttCacheEnable = false
  fetches : FetchAllowed (rightsCtl c a)

/-- The entry at an address grants the access, as far as that does not depend on its level. -/
def GrantedAt (s : State) (c : Ctx) (a : Acc) (b : Nat) : Prop :=
  EntryGrants (rightsCtl c a) (maskOf s.par.haw 51) (memReadQ s b)

section
variable {s : State} {c : Ctx} {a : Acc} {va : Nat} (w : FlagWalk s c a va)
include w

/-- One more read; `n` are the reserved bits of the level. -/
theorem FlagWalk.reads {t : State} {done : List (Nat × QWord)} {b n : Nat} {e : QWord} {leaf : Bool}
    (m : Marked s t done) (read : e = memReadQ s b) (grants : GrantedAt s c a b) (aligned : b % 8 = 0)
    (fresh : b ∉ done.map Prod.fst) (clear : e.toNat &&& n = 0) (free : NoFlags n) (k : EntryKind)
    (isLeaf : (k == .leaf || bit e 7) = leaf) :
    ∃ e' u, ReadsEntry t c (rightsCtl c a) b k (maskOf s.par.haw 51 ||| n) e e' u ∧
      Marked s u (done ++ [(b, marks (rightsCtl c a) leaf)]) := by
  subst read
  obtain ⟨present, writable, user, executable, high⟩ := grants
  have width := w.width
  exact w.keeps.reads m rfl aligned fresh ⟨present, writable, user, executable, and_or_eq_zero high clear⟩
    ((noFlags_maskOf (by omega) 51).or free) k isLeaf

/-- A pointer of the page directory, or of the level above it, has no reserved bits of its own. -/
theorem FlagWalk.readsPointer {t : State} {done : List (Nat × QWord)} {b : Nat} {e : QWord} (m : Marked s t done)
    (read : e = memReadQ s b) (grants : GrantedAt s c a b) (aligned : b % 8 = 0) (fresh : b ∉ done.map Prod.fst)
    (pointer : bit e 7 = false) :
    ∃ e' u, ReadsEntry t c (rightsCtl c a) b .either (maskOf s.par.haw 51) e e' u ∧
      Marked s u (done ++ [(b, marks (rightsCtl c a) false)]) := by
  have reads := w.reads m read grants aligned fresh (Nat.and_zero _) ⟨rfl, rfl, rfl⟩ .either pointer
  rwa [Nat.or_zero] at reads

/-! ### The walk to a leaf of each level -/

variable {e4 e3 e2 e1 : QWord} {a4 a3 a2 a1 : Nat} (who : Option Engine)
  (ha4 : a4 = bits c.pml4 (s.par.haw - 1) 12 * 4096 + 8 * nbits va 47 39) (read4 : e4 = memReadQ s a4)
  (ha3 : a3 = bits e4 (s.par.haw - 1) 12 * 4096 + 8 * nbits va 38 30) (read3 : e3 = memReadQ s a3)
  (top : bit e4 7 = false)
include ha4 read4 top

theorem FlagWalk.readsTop (grants : GrantedAt s c a a4) :
    ∃ e' u, ReadsEntry s c (rightsCtl c a) a4 .pml4 (maskOf s.par.haw 51 ||| maskOf 7 7) e4 e' u ∧
      Marked s u [(a4, marks (rightsCtl c a) false)] :=
  w.reads (.refl w.canonical) read4 grants (by omega) (by simp) (and_maskOf_seven top) noFlags_maskOf_seven .pml4 top

include ha3 read3

theorem FlagWalk.page1G (different : [a3, a4].Nodup) (grants : ∀ b ∈ [a3, a4], GrantedAt s c a b) (leaf : bit e3 7 = true)
    (clear : e3.toNat &&& maskOf 13 29 = 0) :
    ∃ t, EndsWith (ia32eWalk s .memory who c va a) (pageOf s.par.haw e3 .size1G (bit e3 12) va) t ∧
      Marked s t [(a4, marks (rightsCtl c a) false), (a3, marks (rightsCtl c a) true)] := by
  obtain ⟨e4', t4, entry4, m4⟩ := w.readsTop ha4 read4 top (grants a4 (by simp))
  obtain ⟨e3', t3, entry3, m3⟩ := w.reads m4 read3 (grants a3 (by simp)) (by omega) (by simpa using different) clear
    (noFlags_maskOf (by decide) 29) .either leaf
  subst ha4 ha3
  exact ⟨t3, ia32eWalk_pointer who rfl w.range w.cacheOff entry4 fun r4 rights4 =>
    iaPdp_leaf who m4.par rights4 entry4.same w.fetches entry3 leaf, m3⟩

variable (ha2 : a2 = bits e3 (s.par.haw - 1) 12 * 4096 + 8 * nbits va 29 21) (read2 : e2 = memReadQ s a2)
  (pointer3 : bit e3 7 = false)
include ha2 read2 pointer3

theorem FlagWalk.page2M (different : [a2, a4, a3].Nodup) (grants : ∀ b ∈ [a2, a4, a3], GrantedAt s c a b)
    (leaf : bit e2 7 = true) (clear : e2.toNat &&& maskOf 13 20 = 0) :
    ∃ t, EndsWith (ia32eWalk s .memory who c va a) (pageOf s.par.haw e2 .size2M (bit e2 12) va) t ∧
      Marked s t [(a4, marks (rightsCtl c a) false), (a3, marks (rightsCtl c a) false),
        (a2, marks (rightsCtl c a) true)] := by
  simp only [List.nodup_cons, List.mem_cons, List.not_mem_nil, or_false, not_or] at different
  obtain ⟨⟨ne24, ne23⟩, ne43, -⟩ := different
  obtain ⟨e4', t4, entry4, m4⟩ := w.readsTop ha4 read4 top (grants a4 (by simp))
  obtain ⟨e3', t3, entry3, m3⟩ := w.readsPointer m4 read3 (grants a3 (by simp)) (by omega) (by simp [Ne.symm ne43])
    pointer3
  obtain ⟨e2', t2, entry2, m2⟩ := w.reads m3 read2 (grants a2 (by simp)) (by omega) (by simp [ne24, ne23]) clear
    (noFlags_maskOf (by decide) 20) .either leaf
  subst ha4 ha3 ha2
  exact ⟨t2, ia32eWalk_pointer who rfl w.range w.cacheOff entry4 fun r4 rights4 =>
    iaPdp_pointer who m4.par rights4 entry4.same entry3 pointer3 fun r3 rights3 =>
    iaPd_leaf who m3.par rights3 entry3.same w.fetches entry2 leaf, m2⟩

theorem FlagWalk.pageTable (ha1 : a1 = ptAddress s.par c e2 va) (read1 : e1 = memReadQ s a1)
    (different : [a1, a4, a3, a2].Nodup) (grants : ∀ b ∈ [a1, a4, a3, a2], GrantedAt s c a b) (pointer2 : bit e2 7 = false)
    (clear : e1.toNat &&& (if (c.enable64K s.par && bit e2 11) = true then maskOf 12 15 else 0) = 0) :
    ∃ t, EndsWith (ia32eWalk s .memory who c va a) (pageOf s.par.haw e1 (ptSize s.par c e2) (bit e1 7) va) t ∧
      Marked s t [(a4, marks (rightsCtl c a) false), (a3, marks (rightsCtl c a) false),
        (a2, marks (rightsCtl c a) false), (a1, marks (rightsCtl c a) true)] := by
  simp only [List.nodup_cons, List.mem_cons, List.not_mem_nil, or_false, not_or] at different
  obtain ⟨⟨ne14, ne13, ne12⟩, ⟨ne43, ne42⟩, ne32, -⟩ := different
  have aligned1 : a1 % 8 = 0 := by
    rw [ha1, ptAddress_eq]
    split <;> omega
  obtain ⟨e4', t4, entry4, m4⟩ := w.readsTop ha4 read4 top (grants a4 (by simp))
  obtain ⟨e3', t3, entry3, m3⟩ := w.readsPointer m4 read3 (grants a3 (by simp)) (by omega) (by simp [Ne.symm ne43])
    pointer3
  obtain ⟨e2', t2, entry2, m2⟩ := w.readsPointer m3 read2 (grants a2 (by simp)) (by omega)
    (by simp [Ne.symm ne42, Ne.symm ne32]) pointer2
  obtain ⟨e1', t1, entry1, m1⟩ := w.reads m2 read1 (grants a1 (by simp)) aligned1 (by simp [ne14, ne13, ne12]) clear
    (noFlags_pte _) .leaf rfl
  subst ha4 ha3 ha2 ha1
  exact ⟨t1, ia32eWalk_pointer who rfl w.range w.cacheOff entry4 fun r4 rights4 =>
    iaPdp_pointer who m4.par rights4 entry4.same entry3 pointer3 fun r3 rights3 =>
    iaPd_pointer who m3.par rights3 entry3.same entry2 pointer2 fun r2 rights2 =>
    iaPt_leaf who m2.par w.fetches rights2 entry2.same entry1, m1⟩
end

/-! ### The answer -/

/-- The statement's flags of a pointer, `acc`, and of the leaf. -/
theorem or_marks_rightsCtl (c : Ctx) (a : Acc) (e acc : QWord) (hacc : acc = if c.iommu.eafe then 0x420 else 0x20) :
    e ||| marks (rightsCtl c a) false = e ||| acc ∧
      e ||| marks (rightsCtl c a) true = if isWrite a then e ||| acc ||| 0x40 else e ||| acc := by
  subst hacc
  cases write : isWrite a <;> simp [marks, rightsCtl, write, BitVec.or_assoc]

/-- Settles O24: every entry read grants the access and has its flags set once, as the entries are different QWords; the
walk then goes down to the first leaf, as without the flags. -/
theorem ia32eWalkSetsAccessedAndDirty : Obligations.Ia32eWalkSetsAccessedAndDirty := by
  intro s e k m a va c e4 e3 e2 e1 leaf acc a4 a3 a2 a1 al pa ptrs big pat size inv thirteen resident mode manages iommu
    mocs ready pfm client coherent hva off types caching ha4 read4 ha3 read3 ha2 read2 hbig ha1 read1 result different
    entries top reserved fetch hpa fits hacc
  have run : WalkRuns s e k m a c :=
    ⟨resident, ready, clientProgramming_eq_none client mocs pfm (.inr coherent) iommu⟩
  have w : FlagWalk s c a va.toNat := ⟨⟨manages, types, caching⟩, inv, thirteen, hva, off,
    fetchAllowed_rightsCtl fun isFetch ere => (fetch isFetch ere).2⟩
  have grants : ∀ b ∈ al :: ptrs, GrantedAt s c a b := by
    intro b listed
    obtain ⟨present, writable, user, high⟩ := entries b listed
    exact ⟨present, writable, user, fun checked nxe =>
      (fetch (fetch_of_rightsCtl checked).1 (fetch_of_rightsCtl checked).2).1 nxe b listed, high⟩
  suffices ends : leaf = memReadQ s al ∧
      ∃ t, EndsWith (ia32eWalk s .memory (some e) c va.toNat a) (pageOf s.par.haw leaf size pat va.toNat) t ∧
        Marked s t (ptrs.map (·, marks (rightsCtl c a) false) ++ [(al, marks (rightsCtl c a) true)]) by
    obtain ⟨readLeaf, t, walk, marked⟩ := ends
    subst hpa
    obtain ⟨pointers, last, outside⟩ := marked.entries
    have answer := run.exec_ia32e mode walk (by rw [marked.par]; exact fits)
    refine ⟨_, answer, ?_, rfl, fun b pointer => ?_, ?_, outside⟩
    · exact congrArg (fun u : State => { u with out := .xlate (pageOf s.par.haw leaf size pat va.toNat) }) marked.frame
    · exact (pointers b pointer).trans (or_marks_rightsCtl c a _ acc hacc).1
    · exact last.trans (readLeaf ▸ (or_marks_rightsCtl c a _ acc hacc).2)
  cases leaf3 : bit e3 7
  case true =>
    obtain ⟨rfl, rfl, rfl, rfl, rfl⟩ : ptrs = [a4] ∧ al = a3 ∧ leaf = e3 ∧ size = .size1G ∧ pat = bit e3 12 := by
      simpa [leaf3] using result
    exact ⟨read3, w.page1G (some e) ha4 read4 ha3 read3 top different grants leaf3 reserved⟩
  cases leaf2 : bit e2 7
  case true =>
    obtain ⟨rfl, rfl, rfl, rfl, rfl⟩ : ptrs = [a4, a3] ∧ al = a2 ∧ leaf = e2 ∧ size = .size2M ∧ pat = bit e2 12 := by
      simpa [leaf3, leaf2] using result
    exact ⟨read2, w.page2M (some e) ha4 read4 ha3 read3 top ha2 read2 leaf3 different grants leaf2 reserved⟩
  obtain ⟨rfl, rfl, rfl, rfl, rfl⟩ : ptrs = [a4, a3, a2] ∧ al = a1 ∧ leaf = e1 ∧
      size = (if big then .size64K else .size4K) ∧ pat = bit e1 7 := by
    simpa [leaf3, leaf2] using result
  have clear : leaf.toNat &&& (if big = true then maskOf 12 15 else 0) = 0 := by
    cases big <;> exact reserved
  rw [hbig] at clear ⊢
  rw [hbig, ← ptAddress_eq] at ha1
  exact ⟨read1, w.pageTable (some e) ha4 read4 ha3 read3 top ha2 read2 leaf3 ha1 read1 different grants leaf2 clear⟩

end Sys2Proof.Machine
end

section
/-! SUPPORT. The HDC walk port: which element of a list a message takes, what an HDC has outstanding after a change, what a
claim makes of the state, and which requests the wiping of the port drops. -/
namespace Sys2Proof.Machine

/-! ### Taking the first element -/

/-- A function takes the first element with a property out of a list, by recursion on the list. -/
structure TakesFirst {α : Type} (p : α → Prop) [DecidablePred p] (take : List α → Option α × List α) : Prop where
  nil : take [] = (none, [])
  cons : ∀ a as, take (a :: as) = if p a then (some a, as) else ((take as).1, a :: (take as).2)

section
variable {α : Type} {p : α → Prop} [DecidablePred p] {take : List α → Option α × List α} (t : TakesFirst p take)
include t

theorem TakesFirst.of_first {as bs : List α} {b : α} (before : ∀ a ∈ as, ¬ p a) (here : p b) :
    take (as ++ b :: bs) = (some b, as ++ bs) := by
  induction as with
  | nil => exact (t.cons _ _).trans (if_pos here)
  | cons a as ih =>
    obtain ⟨notHead, notTail⟩ := List.forall_mem_cons.1 before
    rw [List.cons_append, t.cons, if_neg notHead, ih notTail]
    rfl

theorem TakesFirst.of_none {as : List α} (nowhere : ∀ a ∈ as, ¬ p a) : take as = (none, as) := by
  induction as with
  | nil => exact t.nil
  | cons a as ih =>
    obtain ⟨notHead, notTail⟩ := List.forall_mem_cons.1 nowhere
    rw [t.cons, if_neg notHead, ih notTail]
end

theorem takeAsked_takesFirst (x : BitVec 8) : TakesFirst (·.tracking = x) (takeAsked · x) := ⟨rfl, fun _ _ => rfl⟩

theorem takeResponse_takesFirst (m : PageRespMsg) : TakesFirst (fun r => r = respOf m r.xlate) (takeResponse · m) :=
  ⟨rfl, fun _ _ => rfl⟩

theorem takeHeld_takesFirst (slice hdc : BitVec 2) :
    TakesFirst (fun q => q.slice = slice ∧ q.hdc = hdc) (takeHeld · slice hdc) := ⟨rfl, fun _ _ => rfl⟩

/-! ### What an HDC has outstanding -/

theorem HdcPort.isOf_iff {p : HdcPort} {slice hdc : BitVec 2} :
    p.isOf slice hdc = true ↔ p.slice = slice ∧ p.hdc = hdc := by
  simp [HdcPort.isOf]

@[simp] theorem outstandingOf_setOutstanding_same (ps : List HdcPort) (slice hdc : BitVec 2) (ts : List HdcAsked) :
    outstandingOf (setOutstanding ps slice hdc ts) slice hdc = ts := by
  induction ps with
  | nil => exact if_pos (HdcPort.isOf_iff.2 ⟨rfl, rfl⟩)
  | cons p ps ih =>
    rw [setOutstanding]
    split
    case isTrue here => exact if_pos here
    case isFalse there => rw [outstandingOf, if_neg there, ih]

theorem outstandingOf_setOutstanding_other (ps : List HdcPort) {slice hdc x z : BitVec 2} (ts : List HdcAsked)
    (other : ¬(x = slice ∧ z = hdc)) : outstandingOf (setOutstanding ps slice hdc ts) x z = outstandingOf ps x z := by
  have apart {p : HdcPort} (here : p.isOf slice hdc = true) : ¬ p.isOf x z = true := by
    rw [HdcPort.isOf_iff] at here ⊢
    exact fun there => other ⟨there.1.symm.trans here.1, there.2.symm.trans here.2⟩
  induction ps with
  | nil => exact if_neg (apart (HdcPort.isOf_iff.2 ⟨rfl, rfl⟩))
  | cons p ps ih =>
    rw [setOutstanding]
    split
    case isTrue here =>
      rw [outstandingOf, outstandingOf, if_neg (apart here)]
      exact if_neg (apart here)
    case isFalse there => rw [outstandingOf, outstandingOf, ih]

/-! ### Claims and held requests -/

/-- The response a message tells of, and what is left on the bus, also with no such response there. -/
theorem takeResponse_of {rs rest : List HdcResp} {m : PageRespMsg} {r : HdcResp} (same : r = respOf m r.xlate)
    (left : (∃ p q, rs = p ++ r :: q ∧ rest = p ++ q ∧ ∀ x ∈ p, ¬ x = respOf m x.xlate) ∨
      (r.xlate = none ∧ rest = rs ∧ ∀ x ∈ rs, ¬ x = respOf m x.xlate)) :
    (takeResponse rs m).1.getD (respOf m none) = r ∧ (takeResponse rs m).2 = rest := by
  rcases left with ⟨p, q, rfl, rfl, before⟩ | ⟨untranslated, rfl, nowhere⟩
  · have taken := (takeResponse_takesFirst m).of_first (bs := q) before same
    rw [taken]
    exact ⟨rfl, rfl⟩
  · have taken := (takeResponse_takesFirst m).of_none nowhere
    rw [taken]
    exact ⟨(congrArg (respOf m) untranslated).symm.trans same.symm, rfl⟩

section
variable {s : State} {m : PageRespMsg} {r : HdcResp} {rest : List HdcResp}
  (told : (takeResponse s.hdcResponses m).1.getD (respOf m none) = r) (left : (takeResponse s.hdcResponses m).2 = rest)
include told left

/-- A response that answers no request of its HDC only leaves the bus. -/
theorem claimResponse_of_unasked {others : List HdcAsked}
    (taken : takeAsked (outstandingOf s.hdcPorts r.slice r.hdc) r.tracking = (none, others)) :
    claimResponse s m = { s with hdcResponses := rest, out := .hdc r } := by
  subst told left
  simp only [claimResponse, taken]

/-- One that answers a request gives its credit back and fills the mini-TLB. -/
theorem claimResponse_of_asked {asked : HdcAsked} {others : List HdcAsked}
    (taken : takeAsked (outstandingOf s.hdcPorts r.slice r.hdc) r.tracking = (some asked, others)) :
    claimResponse s m = { s with hdcResponses := rest, out := .hdc r,
                                 hdcPorts := setOutstanding s.hdcPorts r.slice r.hdc others,
                                 miniTlb := miniEntry r asked.vpage ++ s.miniTlb } := by
  subst told left
  simp only [claimResponse, taken]
end

theorem claimResponse_hdcQueue (s : State) (m : PageRespMsg) : (claimResponse s m).hdcQueue = s.hdcQueue := by
  unfold claimResponse
  dsimp only
  split <;> rfl

theorem sendHeld_of_none {s : State} {slice hdc : BitVec 2}
    (nothing : ∀ q ∈ s.hdcQueue, ¬(q.slice = slice ∧ q.hdc = hdc)) : sendHeld slice hdc s = .ok s := by
  have taken := (takeHeld_takesFirst slice hdc).of_none nothing
  simp only [sendHeld, taken]

theorem sendHeld_of_first {s : State} {slice hdc : BitVec 2} {p l : List HdcReq} {q : HdcReq}
    (queue : s.hdcQueue = p ++ q :: l) (before : ∀ x ∈ p, ¬(x.slice = slice ∧ x.hdc = hdc))
    (here : q.slice = slice ∧ q.hdc = hdc) : sendHeld slice hdc s = sendPageReq q { s with hdcQueue := p ++ l } := by
  have taken := (takeHeld_takesFirst slice hdc).of_first (bs := l) before here
  simp only [← queue] at taken
  simp only [sendHeld, taken]

/-- The mini-TLB entry of a response without a fault that stands for a translation (R718, R1324). -/
theorem miniEntry_of_xlate {r : HdcResp} {x : Xlate} (code : r.code = .noFault) (xlate : r.xlate = some x)
    (vpage : BitVec 36) : miniEntry r vpage = [⟨r.slice, r.hdc, vpage, r.pa, r.write, r.d, r.memType, x⟩] := by
  simp only [miniEntry, code, xlate]

theorem miniEntry_of_fault {r : HdcResp} (fault : r.code ≠ .noFault ∨ r.xlate = none) (vpage : BitVec 36) :
    miniEntry r vpage = [] := by
  unfold miniEntry
  split
  case h_1 code xlate => simp [code, xlate] at fault
  all_goals rfl

/-! ### Requests -/

/-- An HDC without a credit holds its request back (R740). -/
theorem sendPageReq_of_full {s : State} {q : HdcReq} (full : 2 ≤ (outstandingOf s.hdcPorts q.slice q.hdc).length) :
    sendPageReq q s = .ok { s with hdcQueue := s.hdcQueue ++ [q], out := .waits } := if_pos full

theorem sendPageReq_of_credit {s : State} {q : HdcReq}
    (credit : (outstandingOf s.hdcPorts q.slice q.hdc).length < 2) : sendPageReq q s =
      hdcRequest { s with hdcPorts := setOutstanding s.hdcPorts q.slice q.hdc
                                        (outstandingOf s.hdcPorts q.slice q.hdc ++ [⟨q.tracking, q.vpage⟩]) } none q :=
  if_neg (Nat.not_le.2 credit)

theorem sendHdcResponse_outside {s : State} (outside : s.hdcInvalidating = false) (r : HdcResp) :
    sendHdcResponse s r = { s with hdcResponses := s.hdcResponses ++ [r], out := .hdc r } :=
  if_neg (by simp [outside])

/-- A request whose page is translated to a physical address that a translation may give (R744). -/
theorem hdcRequest_of_page {s t : State} {fail : Option Nat} {q : HdcReq} {c : Ctx} {pa : Nat} {size : PageSize}
    {pat pcd pwt d : Bool} {tab : Option Nat} {tile : Option TrttResult} (resident : (s.eng .render).ctx = some c)
    (free : engineHolds s (some .render) = false) (allowed : iommuRefusal c = none)
    (stated : c.advanced = true → c.faultModel.toNat = 1 → q.faultable = false)
    (page : translate s fail (some .render) q.client (some c) c.mode (q.vpage.toNat * 4096)
      (if q.write then .write else .read) = (⟨.ok (.phys pa size pat pcd pwt) d, tab, tile⟩, t))
    (fits : physOk t.par pa 1 = true) : hdcRequest s fail q = .ok (sendHdcResponse t
      { slice := q.slice, hdc := q.hdc, pa := pa38 pa, write := q.write, d := d, code := .noFault,
        memType := hdcMemType t c q pat pcd pwt pa, tracking := q.tracking,
        mode := modeOf t (some .render) q.client none false, xlate := some (.phys pa size pat pcd pwt) }) := by
  have coherent : (c.advanced && c.faultModel.toNat == 1 && q.faultable) = false := by
    rwa [Bool.and_eq_false_imp, Bool.and_eq_true, beq_iff_eq, and_imp]
  simp [hdcRequest, free, resident, coherent, allowed, page, hdcAnswer, fits]

/-! ### The invalidation handshake -/

/-- What waits on the HDC port is dropped, and nothing else. -/
theorem mem_wipeHdc_waiting {s : State} {w : Waiter} :
    w ∈ (wipeHdc s).waiting ↔ w ∈ s.waiting ∧ ∀ q, w.req ≠ .hdc q := by
  rw [wipeHdc, List.mem_filter]
  cases w.req <;> simp

theorem allAcked_iff {s : State} : allAcked s = true ↔ ∀ h ∈ s.par.hdcs, h ∈ s.hdcAcks := by
  simp [allAcked]

/-- With nothing waiting there is nothing to do again. -/
theorem retryRequests_of_nothing {s : State} (nothing : s.waiting = []) : retryRequests s = .ok s := by
  have same : { s with waiting := [] } = s := by rw [← nothing]
  rw [retryRequests, nothing]
  exact congrArg Except.ok same

end Sys2Proof.Machine
end

section
/-! PROOFS. TLB.INVALIDATE: the state of every engine after it, and what it leaves of the HDC port. -/
namespace Sys2Proof.Machine

/-! ### One engine -/

/-- What an invalidation makes of the state of an engine (R730). -/
def EngineState.invalidated (x : EngineState) (xs : List IommuEntry) (k : InvScope) (st : InvStructs) (e : Engine) :
    EngineState :=
  if scopeReaches k e x then (x.dropFacts (scopePage k).isNone ((scopePage k).getD 0) st).refetch xs st else x

theorem State.setEng_eng (s : State) (e : Engine) : s.setEng e (s.eng e) = s := by cases e <;> rfl

theorem invalidateEngine_eq (s : State) (k : InvScope) (st : InvStructs) (e : Engine) :
    invalidateEngine s k st e = s.setEng e ((s.eng e).invalidated s.iommu k st e) := by
  unfold invalidateEngine EngineState.invalidated
  dsimp only
  split
  · rfl
  · exact (s.setEng_eng e).symm

theorem scopeReaches_iff {k : InvScope} {e : Engine} {x : EngineState} : scopeReaches k e x = true ↔
    k = .all ∨ k = .engine e ∨ ∃ p, (k = .pasid p ∨ ∃ n, k = .page p n) ∧ x.inPasid p = true := by
  cases k <;> simp [scopeReaches, eq_comm (a := e)]

section
variable {x : EngineState} {k : InvScope} {e : Engine} (xs : List IommuEntry) (st : InvStructs)

theorem invalidated_of_not_reached (apart : ¬ scopeReaches k e x = true) : x.invalidated xs k st e = x :=
  if_neg apart

variable (reached : scopeReaches k e x = true)
include reached

theorem mem_invalidated_facts {f : Fact} : f ∈ (x.invalidated xs k st e).facts ↔
    f ∈ x.facts ∧ factRemoved (scopePage k).isNone ((scopePage k).getD 0) st f = false := by
  have facts : (x.invalidated xs k st e).facts =
      x.facts.filter (fun f => !factRemoved (scopePage k).isNone ((scopePage k).getD 0) st f) := by
    rw [EngineState.invalidated, if_pos reached, EngineState.refetch]
    split <;> rfl
  simp [facts]

/-- A scope that is not one page leaves no fact. -/
theorem invalidated_facts_of_whole (whole : scopePage k = none) : (x.invalidated xs k st e).facts = [] := by
  rw [List.eq_nil_iff_forall_not_mem]
  intro f left
  have kept := ((mem_invalidated_facts xs st reached).1 left).2
  simp [factRemoved, whole] at kept

/-- Beside the facts only what was fetched from the IOMMU's structures is new. -/
theorem invalidated_eq : x.invalidated xs k st e = { x with
    facts := (x.invalidated xs k st e).facts
    ctx := if st.pasidCache || st.contextCache then x.ctx.map (refetchCtx xs) else x.ctx } := by
  rw [EngineState.invalidated, if_pos reached, EngineState.refetch]
  split <;> rfl
end

/-- What is left of the facts of an engine that runs in the PASID, when one page is invalidated. -/
theorem invalidated_facts_of_page {x : EngineState} {p : BitVec 20} (inPasid : x.inPasid p = true)
    (xs : List IommuEntry) (st : InvStructs) (n : BitVec 36) (e : Engine) {f : Fact} :
    f ∈ (x.invalidated xs (.page p n) st e).facts → factRemoved false n.toNat st f = false :=
  fun left => ((mem_invalidated_facts (k := .page p n) xs st inPasid).1 left).2

/-! ### Every engine -/

/-- The states of all engines after an invalidation. -/
def invalidatedEngines (s : State) (k : InvScope) (st : InvStructs) : PerEngine EngineState :=
  let x (e : Engine) := (s.eng e).invalidated s.iommu k st e
  ⟨x .render, x .vcs0, x .vcs1, x .vecs, x .bcs⟩

theorem invalidatedEngines_get (s : State) (k : InvScope) (st : InvStructs) (e : Engine) :
    (invalidatedEngines s k st).get e = (s.eng e).invalidated s.iommu k st e := by cases e <;> rfl

theorem foldl_invalidateEngine (s : State) (k : InvScope) (st : InvStructs) :
    [Engine.render, .vcs0, .vcs1, .vecs, .bcs].foldl (fun t e => invalidateEngine t k st e) s =
      { s with engines := invalidatedEngines s k st } := by
  simp only [List.foldl, invalidateEngine_eq]
  rfl

/-- The engines and the shared facts after an invalidation; the HDC port is still as it was. -/
def invalidatedFacts (s : State) (k : InvScope) (st : InvStructs) : State :=
  { s with engines := invalidatedEngines s k st, sharedFacts := if k = .all then [] else s.sharedFacts }

theorem invalidateTlb_eq (s : State) (k : InvScope) (st : InvStructs) : invalidateTlb s k st =
    if scopeReaches k .render (s.eng .render) then wipeHdc (invalidatedFacts s k st) else invalidatedFacts s k st := by
  have shared : (if (k == .all) = true then
      { { s with engines := invalidatedEngines s k st } with sharedFacts := [] }
      else { s with engines := invalidatedEngines s k st }) = invalidatedFacts s k st := by
    by_cases all : k = .all <;> simp [all, invalidatedFacts]
  rw [invalidateTlb, foldl_invalidateEngine, shared]

theorem invalidateTlb_eng (s : State) (k : InvScope) (st : InvStructs) (e : Engine) :
    (invalidateTlb s k st).eng e = (s.eng e).invalidated s.iommu k st e := by
  rw [invalidateTlb_eq]
  split <;> exact invalidatedEngines_get s k st e

theorem invalidateTlb_sharedFacts (s : State) (k : InvScope) (st : InvStructs) :
    (invalidateTlb s k st).sharedFacts = if k = .all then [] else s.sharedFacts := by
  rw [invalidateTlb_eq]
  split <;> rfl

/-- Only remembered facts, refetched context inputs and what the HDCs have in flight can change. -/
theorem invalidateTlb_frame (s : State) (k : InvScope) (st : InvStructs) :
    let t := invalidateTlb s k st
    t = { s with engines := t.engines, sharedFacts := t.sharedFacts, miniTlb := t.miniTlb, hdcPorts := t.hdcPorts
                 hdcResponses := t.hdcResponses, hdcQueue := t.hdcQueue, waiting := t.waiting } := by
  rw [invalidateTlb_eq]
  split <;> rfl

/-! ### What one page leaves -/

/-- A fact that stays when page `n` is invalidated (R730) is no translation of the page, no faulted record of it, no copy
in the GTT cache, no TR-TT fact and, with the page-walk, PASID or context cache, no paging entry. -/
theorem stays_of_page {n : Nat} {st : InvStructs} {facts : List Fact}
    (stays : ∀ f ∈ facts, factRemoved false n st f = false) :
    (∀ tlb x, .leaf tlb false x ∈ facts → x.covers n = false) ∧ (∀ tlb c f q, .faulted tlb n c f q ∉ facts) ∧
      (∀ a k v, .trEntry a k v ∉ facts) ∧ (∀ a r, .trTile a r ∉ facts) ∧ (∀ a v, .gttEntry a v ∉ facts) ∧
      ((st.pwc || st.pasidCache || st.contextCache) = true → ∀ a v, .entry a v ∉ facts) := by
  refine ⟨fun tlb x left => ?leaf, fun tlb c f q left => ?faulted, fun a k v left => ?trEntry, fun a r left => ?trTile,
    fun a v left => ?gttEntry, fun covered a v left => ?entry⟩
  case leaf => simpa [factRemoved] using (Bool.or_eq_false_iff.1 (stays _ left)).2
  case entry =>
    have kept : (false || st.pasidCache || st.contextCache || st.pwc) = false := stays _ left
    simp_all
  all_goals simpa [factRemoved] using stays _ left

/-- Settles O26: engine by engine from `EngineState.invalidated`, the HDC port from `wipeHdc`. -/
theorem tlbInvalidationRemovesTheScope : Obligations.TlbInvalidationRemovesTheScope := by
  intro s k st
  have eng (e : Engine) := invalidateTlb_eng s k st e
  have shared := invalidateTlb_sharedFacts s k st
  refine ⟨{ invalidateTlb s k st with out := .none }, rfl, ?frame, ⟨fun e reached => ?reached, fun e apart => ?apart,
    fun reached => ?port, fun apart => ?noPort⟩, fun all => ?all, fun notAll => shared.trans (if_neg notAll),
    fun e engine => ?engine, fun p e pasid inPasid => ?pasid, fun p n e page inPasid => ?page⟩
  case frame => exact congrArg (fun u : State => { u with out := .none }) (invalidateTlb_frame s k st)
  case reached =>
    have reaches := scopeReaches_iff.2 reached
    have after := invalidated_eq s.iommu st reaches
    have facts (f : Fact) := mem_invalidated_facts (f := f) s.iommu st reaches
    rw [← eng e] at after facts
    exact ⟨after, fun f left => ((facts f).1 left).1⟩
  case apart => exact (eng e).trans (invalidated_of_not_reached _ _ (mt scopeReaches_iff.1 apart))
  case port =>
    rw [invalidateTlb_eq, if_pos (scopeReaches_iff.2 reached)]
    exact ⟨rfl, rfl, rfl, rfl, fun w => mem_wipeHdc_waiting⟩
  case noPort =>
    rw [invalidateTlb_eq, if_neg (mt scopeReaches_iff.1 apart)]
    exact ⟨rfl, rfl, rfl, rfl, rfl⟩
  case all =>
    subst all
    exact ⟨fun e => (congrArg _ (eng e)).trans (invalidated_facts_of_whole _ _ rfl rfl), shared⟩
  case engine =>
    subst engine
    exact (congrArg _ (eng e)).trans (invalidated_facts_of_whole _ _ (beq_self_eq_true e) rfl)
  case pasid =>
    subst pasid
    exact (congrArg _ (eng e)).trans (invalidated_facts_of_whole _ _ inPasid rfl)
  case page =>
    subst page
    have stays := stays_of_page fun f => invalidated_facts_of_page inPasid s.iommu st n e
    rwa [← eng e] at stays

end Sys2Proof.Machine
end

section
/-! PROOFS. The HDC walk port: page requests, page responses and the invalidation handshake. -/
namespace Sys2Proof.Machine

/-! ### Requests -/

theorem execHdcPageReq_of_invalid {m : PageReqMsg} (invalid : m.valid = false) (s : State) :
    exec (.hdcPageReq m) s = .next { s with out := .none } := if_pos (by simp [invalid])

section
variable {m : PageReqMsg} {s : State} (valid : m.valid = true)
include valid

theorem execHdcPageReq_of_invalidating (invalidating : s.hdcInvalidating = true) :
    exec (.hdcPageReq m) s = .next { s with out := .dropped } :=
  (if_neg (by simp [valid])).trans (if_pos invalidating)

theorem execHdcPageReq_of_sent (outside : s.hdcInvalidating = false) :
    exec (.hdcPageReq m) s = outcome (sendPageReq (reqOf m) s) :=
  (if_neg (by simp [valid])).trans (if_neg (by simp [outside]))
end

/-- Settles O27: a request with a credit is `hdcRequest` with the request outstanding. -/
theorem hdcPageRequestIsAnswered : Obligations.HdcPageRequestIsAnswered := by
  intro s s0 s1 m q c pa size pat pcd pwt d tab tile ts hq hts hs0
  change q = reqOf m at hq
  subst hq hts
  refine ⟨fun invalid => execHdcPageReq_of_invalid invalid s, execHdcPageReq_of_invalidating,
    fun valid outside full => ?held,
    fun valid outside credit resident free allowed stated page fits outside1 r hr => ?answered⟩
  case held => rw [execHdcPageReq_of_sent valid outside, sendPageReq_of_full full, outcome]
  case answered =>
    have sent : sendPageReq (reqOf m) s = hdcRequest s0 none (reqOf m) := hs0 ▸ sendPageReq_of_credit credit
    have resident0 : (s0.eng .render).ctx = some c := hs0 ▸ resident
    have free0 : engineHolds s0 (some .render) = false := hs0 ▸ free
    rw [execHdcPageReq_of_sent valid outside, sent, hdcRequest_of_page resident0 free0 allowed stated page fits, outcome,
      sendHdcResponse_outside outside1, hr]
    rfl

/-! ### Responses -/

theorem execHdcPageResp_of_invalid {m : PageRespMsg} (invalid : m.valid = false) (s : State) :
    exec (.hdcPageResp m) s = .next { s with out := .none } := if_pos (by simp [invalid])

section
variable {m : PageRespMsg} {s : State} (valid : m.valid = true)
include valid

theorem execHdcPageResp_of_invalidating (invalidating : s.hdcInvalidating = true) :
    exec (.hdcPageResp m) s = .next { s with out := .dropped } :=
  (if_neg (by simp [valid])).trans (if_pos invalidating)

theorem execHdcPageResp_of_sent (outside : s.hdcInvalidating = false) :
    exec (.hdcPageResp m) s = outcome (sendHeld m.slice m.hdc (claimResponse s m)) :=
  (if_neg (by simp [valid])).trans (if_neg (by simp [outside]))

/-- With no request held back the claim is all that a response does. -/
theorem execHdcPageResp_of_none_held (outside : s.hdcInvalidating = false)
    (nothing : ∀ q ∈ s.hdcQueue, ¬(q.slice = m.slice ∧ q.hdc = m.hdc)) :
    exec (.hdcPageResp m) s = .next (claimResponse s m) := by
  rw [← claimResponse_hdcQueue s m] at nothing
  rw [execHdcPageResp_of_sent valid outside, sendHeld_of_none nothing, outcome]
end

/-- Settles O28: the claim takes the first response and the first request that fit, and the HDC then sends the first
request it holds back. -/
theorem hdcPageResponseIsClaimed : Obligations.HdcPageResponseIsClaimed := by
  intro s m r rs ts same
  refine ⟨fun invalid => execHdcPageResp_of_invalid invalid s, execHdcPageResp_of_invalidating,
    fun valid outside isSame onBus hts => ?sent⟩
  subst hts
  obtain ⟨xlate, rfl⟩ : ∃ x, r = respOf m x := ⟨r.xlate, isSame⟩
  obtain ⟨told, left⟩ := takeResponse_of isSame onBus
  have asked := takeAsked_takesFirst m.tracking
  refine ⟨fun nothing unasked => ?unasked, fun nothing p y q outstanding here before => ?asked,
    fun p q l queue ofSlice ofHdc before => ?held⟩
  case unasked =>
    exact (execHdcPageResp_of_none_held valid outside nothing).trans
      (congrArg _ (claimResponse_of_unasked told left (asked.of_none unasked)))
  case asked =>
    have taken := asked.of_first (bs := q) before here
    rw [← outstanding] at taken
    refine ⟨_, (execHdcPageResp_of_none_held valid outside nothing).trans
      (congrArg _ (claimResponse_of_asked told left taken)), rfl, outstandingOf_setOutstanding_same _ _ _ _,
      fun x z other => outstandingOf_setOutstanding_other _ _ other, fun fault => ?noEntry, fun x code is => ?entry⟩
    case noEntry => exact congrArg (· ++ s.miniTlb) (miniEntry_of_fault fault _)
    case entry => exact congrArg (· ++ s.miniTlb) (miniEntry_of_xlate code is _)
  case held =>
    rw [← claimResponse_hdcQueue s m] at queue
    rw [execHdcPageResp_of_sent valid outside, sendHeld_of_first queue before ⟨ofSlice, ofHdc⟩]

/-! ### The handshake -/

section
variable {s : State} (opened : s.hdcInvalidating = true)
include opened

theorem execHdcTlbInv_stop_of_acked (acked : ∀ h ∈ s.par.hdcs, h ∈ s.hdcAcks) : exec (.hdcTlbInv .stop) s =
    outcome (retryRequests { s with hdcInvalidating := false, hdcAcks := [], out := .none }) :=
  (if_neg (by simp [opened])).trans (if_pos (allAcked_iff.2 acked))

theorem execHdcTlbInv_stop_of_missing (missing : ¬ ∀ h ∈ s.par.hdcs, h ∈ s.hdcAcks) :
    exec (.hdcTlbInv .stop) s = .next { s with out := .waits } :=
  (if_neg (by simp [opened])).trans (if_neg (mt allAcked_iff.1 missing))

/-- An acknowledgement is recorded once. -/
theorem execHdcTlbInv_ack (x y : BitVec 2) : exec (.hdcTlbInv (.ack x y)) s =
    .next { s with hdcAcks := if (x, y) ∈ s.hdcAcks then s.hdcAcks else s.hdcAcks ++ [(x, y)], out := .none } := by
  have contains : (s.hdcAcks.contains (x, y) = true) = ((x, y) ∈ s.hdcAcks) := List.contains_iff_mem.eq
  simp only [← contains]
  exact if_pos opened
end

/-- Settles O29: the start wipes the port, the end makes again what waits once every HDC has acknowledged. -/
theorem hdcInvalidationHandshake : Obligations.HdcInvalidationHandshake := by
  intro s x y
  refine ⟨fun closed => ?start, fun opened => if_pos opened, fun opened => ?ack, execHdcTlbInv_stop_of_acked,
    fun opened acked nothing => ?stop, fun opened missing => ?missing,
    fun closed => ⟨if_neg (by simp [closed]), if_pos (by simp [closed])⟩⟩
  case start =>
    exact ⟨_, if_neg (by simp [closed]), rfl, fun w => mem_wipeHdc_waiting.1,
      fun w waits notHdc => mem_wipeHdc_waiting.2 ⟨waits, notHdc⟩⟩
  case ack =>
    refine ⟨_, execHdcTlbInv_ack opened x y, rfl, ?_⟩
    dsimp only
    split
    case isTrue told => exact ⟨told, fun z => .inl, fun z => id⟩
    case isFalse =>
      exact ⟨List.mem_concat_self, fun z told => (List.mem_append.1 told).imp_right List.mem_singleton.1,
        fun z => List.mem_append_left _⟩
  case stop =>
    have again := retryRequests_of_nothing (s := { s with hdcInvalidating := false, hdcAcks := [], out := .none }) nothing
    exact (execHdcTlbInv_stop_of_acked opened acked).trans (congrArg outcome again)
  case missing =>
    obtain ⟨h, isHdc, silent⟩ := missing
    exact execHdcTlbInv_stop_of_missing opened fun acked => silent (acked h isHdc)

end Sys2Proof.Machine
end

section
/-! PROOFS. The bare page: a single byte followed by zeros is an atomic of R334 with address 0, or a texture block. -/
namespace Sys2Proof

open Machine

theorem leBytes_zero (n : Nat) : leBytes n 0 = List.replicate n 0 := by
  induction n with
  | zero => rfl
  | succ n ih => rw [leBytes, Nat.zero_div, ih, List.replicate_succ]; rfl

theorem leBytes_of_byte {v : Nat} (byte : v < 256) (n : Nat) :
    leBytes (n + 1) v = BitVec.ofNat 8 v :: List.replicate n 0 := by
  rw [leBytes, Nat.div_eq_of_lt byte, leBytes_zero]

/-- A table word of one byte is a record of the bare page, with any zeros as operands after the byte. -/
theorem decodeTableWord_of_byte {v : Nat} (byte : v < 256) {i : Instr}
    (bare : decodeBare (BitVec.ofNat 8 v :: List.replicate 61 0) = .ok i) : decodeTableWord 8 v = some i := by
  have isRecord : leBytes 64 v = record 0 0 (BitVec.ofNat 8 v :: List.replicate 61 0) := leBytes_of_byte byte 63
  have decoded : decode (leBytes 64 (v % 2 ^ 8)) = .ok i := by
    rw [show v % 2 ^ 8 = v from Nat.mod_eq_of_lt byte, isRecord, decode_record (by simp)]
    simpa [decodeMember] using bare
  rw [decodeTableWord, decoded]

/-- An opcode byte `1100_kkkk` alone is the atomic `kkkk` at address 0. -/
theorem decodeTableWord_atomic {k : Nat} (hk : k < 16) : decodeTableWord 8 (192 + k) = some (atomicRow k 0) := by
  have opcode : (BitVec.ofNat 8 (192 + k)).toNat = 192 + k := by
    rw [BitVec.toNat_ofNat]
    omega
  refine decodeTableWord_of_byte (by omega) ?_
  rw [decodeBare_atomic (by omega), opcode, show (192 + k) % 16 = k by omega]
  exact row_enc (Codec.bv_lawful (by decide)) (atomicRow k) 0 53 (atomicRow_wellFormed k 0)

/-- Any other byte alone is the block with that value. -/
theorem decodeTableWord_block {v : Nat} (byte : v < 256) (notOpcode : v / 16 ≠ 12)
    (wf : (bareBlock (BitVec.ofNat 128 v)).WellFormed) :
    decodeTableWord 8 v = some (bareBlock (BitVec.ofNat 128 v)) := by
  have first : (BitVec.ofNat 8 v).toNat = v := Nat.mod_eq_of_lt byte
  have block : (Codec.bv 128 16).enc (BitVec.ofNat 128 v) = BitVec.ofNat 8 v :: List.replicate 15 0 := by
    have value : (BitVec.ofNat 128 v).toNat = v := Nat.mod_eq_of_lt (by omega)
    exact (congrArg (leBytes 16) value).trans (leBytes_of_byte byte 15)
  refine decodeTableWord_of_byte byte ((if_neg (by rwa [first])).trans ?_)
  have read := row_enc (Codec.bv_lawful (w := 128) (n := 16) (by decide)) bareBlock (BitVec.ofNat 128 v) 46 wf
  rwa [block] at read

/-- Settles O3: the opcodes by their low four bits, the blocks by the rows of `bareBlock`. -/
theorem printedOpcodesDecodeToTheirRows : Obligations.PrintedOpcodesDecodeToTheirRows :=
  ⟨decodeTableWord_atomic (k := 5) (by decide), decodeTableWord_atomic (k := 15) (by decide),
    decodeTableWord_block (by decide) (by decide) rfl, decodeTableWord_block (by decide) (by decide) rfl,
    decodeTableWord_block (by decide) (by decide) rfl⟩

end Sys2Proof
end

section
/-! PROOFS. The atomic updates of paging entries: one read-modify-write of the QWord aimed at, and what each update makes of
an entry. -/
namespace Sys2Proof.Machine

/-! ### The read-modify-write -/

/-- An 8-byte aligned address below `2^HAW` aims at itself (R750). -/
theorem atomicTarget_of_aligned {s : State} {addr : BitVec 64} (aligned : addr.toNat % 8 = 0)
    (below : addr.toNat < 2 ^ s.par.haw) : atomicTarget s addr = addr.toNat := by
  rw [atomicTarget, Nat.div_mul_cancel (Nat.dvd_of_mod_eq_zero aligned), Nat.mod_eq_of_lt below]

section
variable {s : State} {addr : BitVec 64} {i : Instr} {f g : QWord → QWord} (canonical : Inv s)
include canonical

/-- An atomic is `atomicRmwQ` at its target, and answers the values of the QWord before and after. -/
theorem updatesQWord_of_atomic (update : f = g) (arm : exec i s = execAtomic f addr s) :
    UpdatesQWord i (atomicTarget s addr) g s := by
  subst update
  obtain ⟨values, new, outside, frame, -⟩ := atomicRmwQ_spec canonical (atomicTarget s addr) f
  unfold execAtomic at arm
  generalize atomicRmwQ s (atomicTarget s addr) f = r at *
  exact ⟨_, arm, congrArg (fun t : State => { t with out := .qword r.1.1 r.1.2 }) frame,
    congrArg (fun v : QWord × QWord => Result.qword v.1 v.2) values, new, outside⟩

theorem updatesQWord_of_aligned (aligned : addr.toNat % 8 = 0) (below : addr.toNat < 2 ^ s.par.haw) (update : f = g)
    (arm : exec i s = execAtomic f addr s) : UpdatesQWord i addr.toNat g s :=
  atomicTarget_of_aligned aligned below ▸ updatesQWord_of_atomic canonical update arm
end

/-! ### The page updates (R752) -/

/-- An entry with Accessed set, and Extended-Accessed if it is enabled. -/
def withAccessed (ea : Bool) (e : QWord) : QWord := if ea then e ||| 0x20 ||| 0x400 else e ||| 0x20

/-- An entry with Dirty set as well. -/
def withAccessedDirty (ea : Bool) (e : QWord) : QWord := if ea then e ||| 0x60 ||| 0x400 else e ||| 0x60

theorem or_flags (ea : Bool) (e : QWord) : e ||| (flagA ||| (if ea then flagEA else 0) ||| 0) = withAccessed ea e := by
  cases ea <;> simp [withAccessed, flagA, flagEA, BitVec.or_assoc]

theorem or_flags_dirty (ea : Bool) (e : QWord) :
    e ||| (flagA ||| (if ea then flagEA else 0) ||| flagD) = withAccessedDirty ea e := by
  cases ea <;> simp [withAccessedDirty, flagA, flagEA, flagD, BitVec.or_assoc]

/-- R752 by its cases: what is set in a present entry is decided by the kind of request and, for a write, by whether the
entry maps a page and whether it refuses the write. -/
theorem pageUpdate_eq (i wp ea w : Bool) (e : QWord) : pageUpdate i wp ea w e =
    if bit e 0 then
      if w && wp && !bit e 1 then (if !i || bit e 7 then withAccessed ea e else e)
      else if w && (!i || bit e 7) then withAccessedDirty ea e else withAccessed ea e
    else e := by
  have untouched : e ||| 0 = e := BitVec.or_zero
  rw [← or_flags, ← or_flags_dirty, pageUpdate, pageUpdateMask, entryP, entryRW, entryPS]
  generalize (!i || bit e 7) = mapsPage
  cases bit e 0
  case false => exact untouched
  case true =>
    cases w && wp && !bit e 1
    case false => cases w && mapsPage <;> simp
    case true => cases mapsPage <;> simp

/-- A read, of any entry. -/
theorem pageUpdate_read (i wp ea : Bool) :
    pageUpdate i wp ea false = fun e => if bit e 0 then withAccessed ea e else e := by
  funext e
  simp [pageUpdate_eq]

/-- A write that no protection refuses, at a final entry. -/
theorem pageUpdate_final_write (ea : Bool) :
    pageUpdate false false ea true = fun e => if bit e 0 then withAccessedDirty ea e else e := by
  funext e
  simp [pageUpdate_eq]

/-- A write under write protection, at a final entry. -/
theorem pageUpdate_final_protectedWrite (ea : Bool) : pageUpdate false true ea true = fun e =>
    if bit e 0 then (if bit e 1 then withAccessedDirty ea e else withAccessed ea e) else e := by
  funext e
  cases writable : bit e 1 <;> simp [pageUpdate_eq, writable]

/-- A write that no protection refuses, at an intermediate entry: only a large page becomes dirty. -/
theorem pageUpdate_intermediate_write (ea : Bool) : pageUpdate true false ea true = fun e =>
    if bit e 0 then (if bit e 7 then withAccessedDirty ea e else withAccessed ea e) else e := by
  funext e
  simp [pageUpdate_eq]

/-- A write under write protection, at an intermediate entry. -/
theorem pageUpdate_intermediate_protectedWrite (ea : Bool) : pageUpdate true true ea true = fun e =>
    if bit e 0 then (if bit e 1 then (if bit e 7 then withAccessedDirty ea e else withAccessed ea e)
      else (if bit e 7 then withAccessed ea e else e)) else e := by
  funext e
  cases writable : bit e 1 <;> simp [pageUpdate_eq, writable]

/-! ### The statements -/

/-- Settles O30: reads set Accessed, writes Dirty too unless the entry refuses them. -/
theorem finalEntryPageUpdates : Obligations.FinalEntryPageUpdates := by
  intro s addr canonical aligned below
  have updates {i f g} := updatesQWord_of_aligned canonical aligned below (i := i) (f := f) (g := g)
  have read (wp ea : Bool) := pageUpdate_read false wp ea
  exact ⟨updates (read false false) rfl, updates (pageUpdate_final_write false) rfl,
    updates (read false true) rfl, updates (pageUpdate_final_write true) rfl,
    updates (read true false) rfl, updates (pageUpdate_final_protectedWrite false) rfl,
    updates (read true true) rfl, updates (pageUpdate_final_protectedWrite true) rfl⟩

/-- Settles O31: as at a final entry where the entry maps a large page; where it maps none no write sets Dirty, and one that
is refused sets nothing. -/
theorem intermediateEntryPageUpdates : Obligations.IntermediateEntryPageUpdates := by
  intro s addr canonical aligned below
  have updates {i f g} := updatesQWord_of_aligned canonical aligned below (i := i) (f := f) (g := g)
  have read (wp ea : Bool) := pageUpdate_read true wp ea
  exact ⟨updates (read false false) rfl, updates (pageUpdate_intermediate_write false) rfl,
    updates (read false true) rfl, updates (pageUpdate_intermediate_write true) rfl,
    updates (read true false) rfl, updates (pageUpdate_intermediate_protectedWrite false) rfl,
    updates (read true true) rfl, updates (pageUpdate_intermediate_protectedWrite true) rfl⟩

/-- R783: the flag of `accessedUpdate` as the printed number. -/
theorem accessedUpdate_eq : accessedUpdate = fun e => if bit e 0 then e ||| 0x20 else e := rfl

/-- R787: the flags of `accessedDirtyUpdate` as the printed number. -/
theorem accessedDirtyUpdate_eq : accessedDirtyUpdate = fun e => if bit e 0 && bit e 1 then e ||| 0x60 else e := rfl

/-- Settles O32: five atomics of one simplified update and three of the other. -/
theorem unopcodedAtomicUpdates : Obligations.UnopcodedAtomicUpdates := by
  intro s addr canonical
  have accessed {i} := updatesQWord_of_atomic canonical accessedUpdate_eq (i := i) (addr := addr)
  have dirty {i} := updatesQWord_of_atomic canonical accessedDirtyUpdate_eq (i := i) (addr := addr)
  exact ⟨accessed rfl, accessed rfl, accessed rfl, accessed rfl, accessed rfl, dirty rfl, dirty rfl, dirty rfl,
    atomicTarget_of_aligned⟩

end Sys2Proof.Machine
end

section
/-! PROOFS. The simple formats: R1, the palette formats and packed YUV 4:2:2 (R820 to R832, R880, R881). -/
namespace Sys2Proof.Machine

/-- An operation that is one `answer` answers that result, and nothing else changes. -/
theorem answers_of_answer {i : Instr} {s : State} {r r' : Result} (run : exec i s = answer s r) (result : r = r') :
    Answers i s r' := result ▸ run

theorem replicate4_eq (a : Nat) : replicate4 a = 17 * a := by
  rw [replicate4]
  omega

/-- R826: an index inside the palette reads its entry. -/
theorem paletteEntry_of_getElem? {s : State} {i : Nat} {c : DWord} (entry : s.palette[i]? = some c) :
    paletteEntry s i = c := by
  rw [paletteEntry, List.getD_eq_getElem?_getD, entry, Option.getD_some]

/-- R827 to R830: the colour is the low 24 bits of the entry. -/
theorem paletteAlpha_of_getElem? {s : State} {i : Nat} {c : DWord} (entry : s.palette[i]? = some c) (alpha : Nat) :
    paletteAlpha s i alpha = .paletteRgb (c.extractLsb' 0 24) (.unorm alpha 255) := by
  rw [paletteAlpha, paletteEntry_of_getElem? entry]
  rfl

/-- R827, R828: as `paletteAlpha_of_getElem?`, with a 4-bit alpha. -/
theorem paletteAlpha_replicate4 {s : State} {i : Nat} {c : DWord} (entry : s.palette[i]? = some c) (alpha : Nat) :
    paletteAlpha s i (replicate4 alpha) = .paletteRgb (c.extractLsb' 0 24) (.unorm (17 * alpha) 255) := by
  rw [paletteAlpha_of_getElem? entry, replicate4_eq]

/-- R832: in either order the index is the two bits from where texel `k` begins. -/
theorem p2Index_eq (low : Bool) (p : BitVec 8) (k : BitVec 2) :
    p2Index low p k.toNat = (p.toNat >>> (if low then 2 * k.toNat else 6 - 2 * k.toNat)) % 4 := by
  have inByte := k.isLt
  cases low
  case true =>
    have width : 2 * k.toNat + 1 + 1 - 2 * k.toNat = 2 := by omega
    simp [p2Index, bits, width]
  case false =>
    have width : 7 - 2 * k.toNat + 1 - (6 - 2 * k.toNat) = 2 := by omega
    simp [p2Index, bits, width]

/-- Settles O33: R1 and YUV are the printed fields as they stand; a palette format reads the entry of its index. -/
theorem simpleFormatsDecode : Obligations.SimpleFormatsDecode := by
  intro s
  refine ⟨fun b k => rfl, fun p c => ⟨fun entry => ?_, fun entry => ?_, fun entry => ?_, fun k entry => ?_⟩,
    fun p c => ⟨fun entry => ?_, fun entry => ?_⟩, fun v => ⟨rfl, rfl, rfl, rfl⟩⟩
  case refine_1 => exact answers_of_answer rfl (paletteAlpha_replicate4 entry _)
  case refine_2 => exact answers_of_answer rfl (paletteAlpha_replicate4 entry _)
  case refine_3 => exact answers_of_answer rfl (congrArg Result.argb (paletteEntry_of_getElem? entry))
  case refine_4 =>
    rw [← p2Index_eq] at entry
    exact answers_of_answer rfl (congrArg Result.argb (paletteEntry_of_getElem? entry))
  case refine_5 => exact answers_of_answer rfl (paletteAlpha_of_getElem? entry _)
  case refine_6 => exact answers_of_answer rfl (paletteAlpha_of_getElem? entry _)

end Sys2Proof.Machine
end

section
/-! PROOFS. ETC1: what the arithmetic of R836 is on the fields of a block, and the two modes with a luminance table. -/
namespace Sys2Proof.Machine

/-! ### Conventions (R836) -/

theorem bits_lt {w : Nat} (v : BitVec w) (hi lo : Nat) : bits v hi lo < 2 ^ (hi + 1 - lo) :=
  Nat.mod_lt _ (Nat.two_pow_pos _)

/-- Replication of 4 bits multiplies by 17. -/
theorem ext4_of_lt {x : Nat} (h : x < 16) : ext4 x = 17 * x := by
  rw [ext4, ← Nat.shiftLeft_add_eq_or_of_lt h, Nat.shiftLeft_eq]
  omega

/-- The replication of a 4-bit field. -/
theorem ext4_bits {w : Nat} (v : BitVec w) {hi lo : Nat} (width : hi + 1 - lo = 4) :
    ext4 (bits v hi lo) = 17 * bits v hi lo := by
  have small := bits_lt v hi lo
  rw [width] at small
  exact ext4_of_lt small

/-- The texel of a colour whose channels are clamped to bytes, in a format without sRGB. -/
theorem Rgb.texel_clamped (c : Rgb) (a : Chan) : c.clamped.texel false a =
    ⟨.unorm (clamp255 c.r) 255, .unorm (clamp255 c.g) 255, .unorm (clamp255 c.b) 255, a⟩ := rfl

/-! ### ETC1 -/

/-- R838: the sub-block, as the half of the block that the texel lies in. -/
theorem etcSub_eq (v : BitVec 64) (n : Pos) :
    etcSub v n = decide ((if bit v 24 then n.row.toNat / 2 else n.col.toNat / 2) ≠ 0) := by
  rw [etcSub]
  split <;> exact decide_eq_decide.mpr (by omega)

/-- R841: the base colours of an individual block. -/
theorem baseIndividual_eq (v : BitVec 64) (sub : Bool) : baseIndividual v sub =
    if sub then rgbOf (17 * bits v 3 0) (17 * bits v 11 8) (17 * bits v 19 16)
    else rgbOf (17 * bits v 7 4) (17 * bits v 15 12) (17 * bits v 23 20) := by
  simp only [baseIndividual, ext4_bits, Nat.reduceAdd, Nat.reduceSub]

/-- R839: three sums in 0..31. -/
theorem diffInRange_of_le {v : BitVec 64} (r : 0 ≤ (diffSums v).r ∧ (diffSums v).r ≤ 31)
    (g : 0 ≤ (diffSums v).g ∧ (diffSums v).g ≤ 31) (b : 0 ≤ (diffSums v).b ∧ (diffSums v).b ≤ 31) :
    diffInRange v = true := by
  simp [diffInRange, in31, r, g, b]

section
variable (s : State) {v : BitVec 64} (n : Pos)

/-- R841: an individual block, and a differential one whose sums are in range, decode by the luminance table. -/
theorem exec_etc1_of_inRange (h : bit v 25 = false ∨ diffInRange v = true) : exec (.etc1 v n) s =
    answer s (.texel ((etcBlock lum (bit v 25) v n).texel false alphaDefault)) := by
  have stated : (bit v 25 && !diffInRange v) = false := by
    obtain individual | inRange := h
    · rw [individual, Bool.false_and]
    · rw [inRange, Bool.not_true, Bool.and_false]
  show answer (decodeEtc1 s v n).2 (.texel (decodeEtc1 s v n).1) = _
  rw [decodeEtc1, stated]
  rfl

/-- R839, U20: any other differential block answers three free bytes. -/
theorem exec_etc1_of_outOfRange (differential : bit v 25 = true) (h : diffInRange v = false) : exec (.etc1 v n) s =
    answer { s with freeCount := s.freeCount + 3 }
      (.texel ⟨u8 (Config.freeByte s.freeCount).toNat, u8 (Config.freeByte (s.freeCount + 1)).toNat,
        u8 (Config.freeByte (s.freeCount + 2)).toNat, alphaDefault⟩) := by
  show answer (decodeEtc1 s v n).2 (.texel (decodeEtc1 s v n).1) = _
  rw [decodeEtc1, differential, h]
  rfl

end

/-- Settles O34: by the mode of the block, and in a mode with base colours by the sub-block of the texel. -/
theorem etc1Decodes : Obligations.Etc1Decodes := by
  intro s v n sub k m ch d
  have subBlock : etcSub v n = decide (sub ≠ 0) := etcSub_eq v n
  refine ⟨fun individual => ?_, fun differential r0 r31 g0 g31 b0 b31 => ?_, fun differential outOfRange => ?_⟩
  case refine_1 =>
    refine answers_of_answer (exec_etc1_of_inRange s n (.inl individual)) ?_
    rw [individual, etcBlock, subBlock, baseIndividual_eq, Rgb.texel_clamped]
    by_cases first : sub = 0 <;> simp [first, ch, m, k, Rgb.plus, rgbOf, alphaDefault, etcIndex, lumColumn]
  case refine_2 =>
    have inRange := diffInRange_of_le ⟨r0, r31⟩ ⟨g0, g31⟩ ⟨b0, b31⟩
    refine answers_of_answer (exec_etc1_of_inRange s n (.inr inRange)) ?_
    rw [differential, etcBlock, subBlock, baseDifferential, Rgb.texel_clamped]
    by_cases first : sub = 0 <;> simp [first, ch, m, k, d, Rgb.plus, rgbOf, alphaDefault, etcIndex, lumColumn]
  case refine_3 => exact ⟨_, _, _, exec_etc1_of_outOfRange s n differential outOfRange⟩

end Sys2Proof.Machine
end

section
/-! PROOFS. ETC2: the mode of a block, and the colours of each mode as the rules print them. -/
namespace Sys2Proof.Machine

/-! ### Joined fields (R836) -/

theorem cat_eq (a n b : Nat) : cat a n b = 2 ^ n * a + b := by
  rw [cat, Nat.mul_comm]

/-- `m` bits above `n` bits are `m + n` bits. -/
theorem cat_lt {a m b n : Nat} (ha : a < 2 ^ m) (hb : b < 2 ^ n) : cat a n b < 2 ^ (m + n) := by
  rw [cat, Nat.pow_add]
  calc a * 2 ^ n + b < a * 2 ^ n + 2 ^ n := Nat.add_lt_add_left hb _
    _ = (a + 1) * 2 ^ n := (Nat.succ_mul a _).symm
    _ ≤ 2 ^ m * 2 ^ n := Nat.mul_le_mul_right _ ha

/-! ### The mode (R844) -/

section
variable {v : BitVec 64}

/-- A differential block with its sums in range, and no other, stays differential. -/
theorem etc2Mode_eq_differential_iff : etc2Mode true v = .differential ↔ diffInRange v = true := by
  rw [etc2Mode, diffInRange]
  cases in31 (diffSums v).r <;> cases in31 (diffSums v).g <;> cases in31 (diffSums v).b <;> decide

theorem etc2Mode_eq_tMode (r : in31 (diffSums v).r = false) : etc2Mode true v = .tMode := by
  simp [etc2Mode, r]

theorem etc2Mode_eq_hMode (r : in31 (diffSums v).r = true) (g : in31 (diffSums v).g = false) :
    etc2Mode true v = .hMode := by
  simp [etc2Mode, r, g]

theorem etc2Mode_eq_planar (r : in31 (diffSums v).r = true) (g : in31 (diffSums v).g = true)
    (b : in31 (diffSums v).b = false) : etc2Mode true v = .planar := by
  simp [etc2Mode, r, g, b]

theorem etc2Mode_ne_individual : etc2Mode true v ≠ .individual := by
  rw [etc2Mode]
  cases in31 (diffSums v).r <;> cases in31 (diffSums v).g <;> cases in31 (diffSums v).b <;> decide

/-- R849: the texel of a block whose mode is known. -/
theorem exec_etc2_of_mode (s : State) (n : Pos) (srgb : Bool) {m : Etc2Mode} (mode : etc2Mode (bit v 25) v = m) :
    exec (.etc2 v n srgb) s = answer s (.texel ((etc2Colour lum m v n).texel srgb alphaDefault)) :=
  mode ▸ rfl

/-- R849: the modes of ETC1. -/
theorem decodeEtc2_of_inRange (n : Pos) (h : bit v 25 = false ∨ diffInRange v = true) :
    decodeEtc2 v n = etcBlock lum (bit v 25) v n := by
  rw [decodeEtc2]
  cases diff : bit v 25
  case false => rfl
  case true =>
    have inRange : diffInRange v = true := h.resolve_left (by simp [diff])
    rw [etc2Mode_eq_differential_iff.mpr inRange]
    rfl

end

/-! ### The colours of the modes -/

/-- R845: the palette of T mode. -/
theorem tColour_eq (v : BitVec 64) (i : Nat) : tColour v i =
    let c0 := rgbOf (17 * (4 * bits v 4 3 + bits v 1 0)) (17 * bits v 15 12) (17 * bits v 11 8)
    let c1 := rgbOf (17 * bits v 23 20) (17 * bits v 19 16) (17 * bits v 31 28)
    let e := etcDist (2 * bits v 27 26 + bits v 24 24)
    if i = 0 then c0 else if i = 1 then c1.plus e else if i = 2 then c1 else c1.plus (-e) := by
  have red : ext4 (cat (bits v 4 3) 2 (bits v 1 0)) = 17 * (4 * bits v 4 3 + bits v 1 0) :=
    (ext4_of_lt (cat_lt (m := 2) (n := 2) (bits_lt v 4 3) (bits_lt v 1 0))).trans (by rw [cat_eq]; omega)
  match i with
  | 0 => simp [tColour, red, ext4_bits]
  | 1 => simp [tColour, cat_eq, ext4_bits]
  | 2 => simp [tColour, ext4_bits]
  | i + 3 => simp [tColour, cat_eq, ext4_bits]

/-- R847: the first base colour of H mode. -/
theorem hBase0_eq (v : BitVec 64) : hBase0 v =
    rgbOf (17 * bits v 6 3) (17 * (2 * bits v 2 0 + bits v 12 12))
      (17 * (8 * bits v 11 11 + 2 * bits v 9 8 + bits v 23 23)) := by
  have green : ext4 (cat (bits v 2 0) 1 (bits v 12 12)) = 17 * (2 * bits v 2 0 + bits v 12 12) := by
    rw [ext4_of_lt (cat_lt (m := 3) (n := 1) (bits_lt v 2 0) (bits_lt v 12 12)), cat_eq]
    omega
  have blue : ext4 (cat (cat (bits v 11 11) 2 (bits v 9 8)) 1 (bits v 23 23)) =
      17 * (8 * bits v 11 11 + 2 * bits v 9 8 + bits v 23 23) := by
    have upper : cat (bits v 11 11) 2 (bits v 9 8) < 2 ^ 3 := cat_lt (m := 1) (bits_lt v 11 11) (bits_lt v 9 8)
    rw [ext4_of_lt (cat_lt (n := 1) upper (bits_lt v 23 23)), cat_eq, cat_eq]
    omega
  rw [hBase0, green, blue, ext4_bits v rfl]

/-- R847: the second base colour of H mode. -/
theorem hBase1_eq (v : BitVec 64) : hBase1 v =
    rgbOf (17 * bits v 22 19) (17 * (2 * bits v 18 16 + bits v 31 31)) (17 * bits v 30 27) := by
  have green : ext4 (cat (bits v 18 16) 1 (bits v 31 31)) = 17 * (2 * bits v 18 16 + bits v 31 31) := by
    rw [ext4_of_lt (cat_lt (m := 3) (n := 1) (bits_lt v 18 16) (bits_lt v 31 31)), cat_eq]
    omega
  rw [hBase1, green, ext4_bits v rfl, ext4_bits v rfl]

/-- R847: a colour of bytes as one number. -/
theorem rgbNumber_rgbOf (r : Nat) {g b : Nat} (hg : g < 256) (hb : b < 256) :
    rgbNumber (rgbOf r g b) = r * 65536 + g * 256 + b := by
  have low : (g <<< 8 ||| b) = g * 256 + b := by
    rw [← Nat.shiftLeft_add_eq_or_of_lt hb, Nat.shiftLeft_eq]
  have below : g * 256 + b < 2 ^ 16 := by omega
  show r <<< 16 ||| g <<< 8 ||| b = _
  rw [Nat.lor_assoc, low, ← Nat.shiftLeft_add_eq_or_of_lt below, Nat.shiftLeft_eq]
  omega

theorem rgbNumber_hBase0 (v : BitVec 64) : rgbNumber (hBase0 v) =
    17 * bits v 6 3 * 65536 + 17 * (2 * bits v 2 0 + bits v 12 12) * 256 +
      17 * (8 * bits v 11 11 + 2 * bits v 9 8 + bits v 23 23) := by
  have g2 : bits v 2 0 < 8 := bits_lt v 2 0
  have g12 : bits v 12 12 < 2 := bits_lt v 12 12
  have b11 : bits v 11 11 < 2 := bits_lt v 11 11
  have b9 : bits v 9 8 < 4 := bits_lt v 9 8
  have b23 : bits v 23 23 < 2 := bits_lt v 23 23
  rw [hBase0_eq, rgbNumber_rgbOf _ (by omega) (by omega)]

theorem rgbNumber_hBase1 (v : BitVec 64) : rgbNumber (hBase1 v) =
    17 * bits v 22 19 * 65536 + 17 * (2 * bits v 18 16 + bits v 31 31) * 256 + 17 * bits v 30 27 := by
  have g18 : bits v 18 16 < 8 := bits_lt v 18 16
  have g31 : bits v 31 31 < 2 := bits_lt v 31 31
  have b30 : bits v 30 27 < 16 := bits_lt v 30 27
  rw [hBase1_eq, rgbNumber_rgbOf _ (by omega) (by omega)]

/-- R847: the distance of H mode; the order of the base colours is the lowest bit of its index. -/
def hDistance (v : BitVec 64) : Int :=
  etcDist (4 * bits v 26 26 + 2 * bits v 24 24 + if rgbNumber (hBase0 v) ≥ rgbNumber (hBase1 v) then 1 else 0)

/-- R847: the palette of H mode. -/
theorem hColour_eq (v : BitVec 64) (i : Nat) : hColour v i =
    if i = 0 then (hBase0 v).plus (hDistance v) else if i = 1 then (hBase0 v).plus (-hDistance v)
    else if i = 2 then (hBase1 v).plus (hDistance v) else (hBase1 v).plus (-hDistance v) := by
  have index (lsb : Nat) : cat (cat (bits v 26 26) 1 (bits v 24 24)) 1 lsb =
      4 * bits v 26 26 + 2 * bits v 24 24 + lsb := by
    rw [cat_eq, cat_eq]
    omega
  match i with
  | 0 | 1 | 2 | i + 3 => simp [hColour, hDistance, index]

/-- R848: planar mode, with the joined fields as numbers. -/
theorem planarColour_eq (v : BitVec 64) (n : Pos) : planarColour v n =
    let f (o h w : Nat) := planarChan o h w n.col.toNat n.row.toNat
    ⟨f (ext6 (bits v 6 1)) (ext6 (2 * bits v 30 26 + bits v 24 24)) (ext6 (8 * bits v 42 40 + bits v 55 53)),
      f (ext7 (64 * bits v 0 0 + bits v 14 9)) (ext7 (bits v 39 33)) (ext7 (4 * bits v 52 48 + bits v 63 62)),
      f (ext6 (32 * bits v 8 8 + 8 * bits v 20 19 + 2 * bits v 17 16 + bits v 31 31))
        (ext6 (32 * bits v 32 32 + bits v 47 43)) (ext6 (bits v 61 56))⟩ := by
  have blue : cat (cat (cat (bits v 8 8) 2 (bits v 20 19)) 2 (bits v 17 16)) 1 (bits v 31 31) =
      32 * bits v 8 8 + 8 * bits v 20 19 + 2 * bits v 17 16 + bits v 31 31 := by
    rw [cat_eq, cat_eq, cat_eq]
    omega
  rw [planarColour, blue]
  simp only [cat_eq, Nat.reducePow]

/-- Settles O35: the first sum out of range names the mode, and the colour of each mode is its rule's. -/
theorem etc2SelectsItsModes : Obligations.Etc2SelectsItsModes := by
  intro s v n i d px
  refine ⟨fun inRange => ?_, fun diff r => ?_, fun diff r g => ?_, fun diff r g b => ?_, _, _, _, rfl, rfl⟩
  case refine_1 =>
    rw [exec_etc1_of_inRange s n inRange, ← decodeEtc2_of_inRange n inRange]
    rfl
  case refine_2 =>
    intro r0 g0 b0 r1 g1 b1 e
    refine answers_of_answer (exec_etc2_of_mode s n false (diff ▸ etc2Mode_eq_tMode r)) ?_
    rw [etc2Colour, tColour_eq, Rgb.texel_clamped]
    simp only [i]
    split_ifs <;> simp [px, r0, g0, b0, r1, g1, b1, e, Rgb.plus, rgbOf, alphaDefault, sub_eq_add_neg]
  case refine_3 =>
    intro r0 g0 b0 r1 g1 b1 e
    have order : rgbNumber (hBase0 v) ≥ rgbNumber (hBase1 v) ↔
        r0 * 65536 + g0 * 256 + b0 ≥ r1 * 65536 + g1 * 256 + b1 := by
      rw [rgbNumber_hBase0, rgbNumber_hBase1]
      omega
    have distance : hDistance v = e := by simp only [hDistance, order, e]
    refine answers_of_answer (exec_etc2_of_mode s n false (diff ▸ etc2Mode_eq_hMode r g)) ?_
    rw [etc2Colour, hColour_eq, Rgb.texel_clamped, distance, hBase0_eq, hBase1_eq]
    simp only [i]
    split_ifs <;> simp [px, r0, g0, b0, r1, g1, b1, Rgb.plus, rgbOf, alphaDefault, sub_eq_add_neg]
  case refine_4 =>
    intro f
    refine answers_of_answer (exec_etc2_of_mode s n false (diff ▸ etc2Mode_eq_planar r g b)) ?_
    rw [etc2Colour, planarColour_eq, Rgb.texel_clamped]
    rfl

end Sys2Proof.Machine
end

section
/-! PROOFS. ETC2 with punch-through alpha: bit 25 is the opaque bit, and the block decodes as a differential one. -/
namespace Sys2Proof.Machine

/-! ### The block with its `diff` bit set -/

/-- A block with bit 25 set (R859): what `ETC2.DECODE` reads where `ETC2.PTA.DECODE` takes `diff` as set. -/
def withDiff (v : BitVec 64) : BitVec 64 := v ||| 0x2000000

theorem testBit_withDiff (v : BitVec 64) (i : Nat) :
    (withDiff v).toNat.testBit i = (v.toNat.testBit i || decide (25 = i)) := by
  rw [withDiff, BitVec.toNat_or, Nat.testBit_or, ← Nat.testBit_two_pow]
  rfl

theorem bit_withDiff (v : BitVec 64) : bit (withDiff v) 25 = true := by
  simp [bit_eq_testBit, testBit_withDiff]

/-- No field beside bit 25 changes. -/
theorem bits_withDiff (v : BitVec 64) {hi lo : Nat} (beside : hi < 25 ∨ 25 < lo) :
    bits (withDiff v) hi lo = bits v hi lo := by
  apply Nat.eq_of_testBit_eq
  intro i
  rw [testBit_bits, testBit_bits, testBit_withDiff]
  by_cases inField : i < hi + 1 - lo
  · have other : ¬ 25 = lo + i := by omega
    simp [other]
  · simp [inField]

theorem bit_withDiff_of_ne (v : BitVec 64) {i : Nat} (other : 25 ≠ i) : bit (withDiff v) i = bit v i := by
  simp [bit_eq_testBit, testBit_withDiff, other]

section
variable (v : BitVec 64) (n : Pos)

theorem etcIndex_withDiff : etcIndex (withDiff v) n = etcIndex v n := by
  rw [etcIndex, bits_withDiff v (.inr (by omega)), bits_withDiff v (.inr (by omega)), etcIndex]

theorem etcSub_withDiff : etcSub (withDiff v) n = etcSub v n := by
  rw [etcSub, bit_withDiff_of_ne v (by decide), etcSub]

theorem diffSums_withDiff : diffSums (withDiff v) = diffSums v := by
  simp [diffSums, bits_withDiff]

theorem etc2Mode_withDiff (diff : Bool) : etc2Mode diff (withDiff v) = etc2Mode diff v := by
  rw [etc2Mode, diffSums_withDiff, etc2Mode]

theorem etcBlock_withDiff (table : Nat → Nat → Int) (diff : Bool) :
    etcBlock table diff (withDiff v) n = etcBlock table diff v n := by
  simp [etcBlock, etcSub_withDiff, etcIndex_withDiff, lumColumn, baseDifferential, baseIndividual, diffSums_withDiff,
    bits_withDiff]

/-- In a mode that is known, no colour reads bit 25. -/
theorem etc2Colour_withDiff (table : Nat → Nat → Int) (m : Etc2Mode) :
    etc2Colour table m (withDiff v) n = etc2Colour table m v n := by
  cases m
  case individual => exact etcBlock_withDiff v n table false
  case differential => exact etcBlock_withDiff v n table true
  case tMode => simp [etc2Colour, tColour, etcIndex_withDiff, bits_withDiff]
  case hMode => simp [etc2Colour, hColour, hBase0, hBase1, etcIndex_withDiff, bits_withDiff]
  case planar => simp [etc2Colour, planarColour, bits_withDiff]

/-! ### Holes and modifiers -/

/-- R849: the texel of `ETC2.DECODE` of the block with bit 25 set. -/
theorem exec_etc2_withDiff (s : State) (srgb : Bool) : exec (.etc2 (withDiff v) n srgb) s =
    answer s (.texel ((etc2Colour lum (etc2Mode true v) v n).texel srgb alphaDefault)) := by
  rw [exec_etc2_of_mode s n srgb (m := etc2Mode true v) (by rw [bit_withDiff, etc2Mode_withDiff]),
    etc2Colour_withDiff]

end

section
variable {v : BitVec 64} {n : Pos} (s : State) (srgb : Bool)

/-- R862: a texel that is no hole. -/
theorem exec_etc2Pta_of_not_hole (h : ptaHole (etc2Mode true v) v n = false) : exec (.etc2Pta v n srgb) s =
    answer s (.texel ((etc2Colour (if bit v 25 then lum else lumP) (etc2Mode true v) v n).texel srgb (u8 255))) := by
  show answer s (.texel (decodeEtc2Pta v n srgb)) = _
  rw [decodeEtc2Pta, h]
  rfl

/-- R859, R860: a texel that is one. -/
theorem exec_etc2Pta_of_hole (h : ptaHole (etc2Mode true v) v n = true) : exec (.etc2Pta v n srgb) s =
    answer s (.texel (rgbTexel srgb 0 0 0 (u8 0))) := by
  show answer s (.texel (decodeEtc2Pta v n srgb)) = _
  rw [decodeEtc2Pta, h]
  rfl

end

/-- R859: the punch-through table differs from the luminance table at the indices 0 and 2 only. -/
theorem lumP_eq_lum {i : Nat} (h0 : i ≠ 0) (h2 : i ≠ 2) (col : Nat) : lumP i col = lum i col := by
  match i with
  | 0 => exact absurd rfl h0
  | 1 => rfl
  | 2 => exact absurd rfl h2
  | i + 3 => rfl

section
variable {v : BitVec 64} {n : Pos}

/-- Where the tables agree, so do the blocks. -/
theorem etcBlock_lumP (diff : Bool) (h0 : etcIndex v n ≠ 0) (h2 : etcIndex v n ≠ 2) :
    etcBlock lumP diff v n = etcBlock lum diff v n := by
  rw [etcBlock, lumP_eq_lum h0 h2, etcBlock]

/-- Only a differential block reads the table, `diff` being set (R862). -/
theorem etc2Colour_lumP (h : etc2Mode true v = .differential → etcIndex v n ≠ 0 ∧ etcIndex v n ≠ 2) :
    etc2Colour lumP (etc2Mode true v) v n = etc2Colour lum (etc2Mode true v) v n := by
  cases mode : etc2Mode true v
  case individual => exact absurd mode etc2Mode_ne_individual
  case differential => exact etcBlock_lumP true (h mode).1 (h mode).2
  case tMode => rfl
  case hMode => rfl
  case planar => rfl

end

/-! ### The base colour of a differential block -/

/-- The replication of 5 bits is a byte. -/
theorem ext5_le {x : Nat} (h : x < 32) : ext5 x ≤ 255 := by
  have low : x >>> 2 < 2 ^ 3 := by omega
  rw [ext5, ← Nat.shiftLeft_add_eq_or_of_lt low, Nat.shiftLeft_eq]
  omega

theorem clamp255_of_le {x : Nat} (h : x ≤ 255) : clamp255 x = x := by
  rw [clamp255, clampI]
  omega

theorem le_of_in31 {x : Int} (h : in31 x = true) : x.toNat < 32 := by
  simp only [in31, Bool.and_eq_true, decide_eq_true_eq] at h
  omega

/-- Clamping a colour of bytes. -/
theorem rgbOf_clamped {r g b : Nat} (hr : r ≤ 255) (hg : g ≤ 255) (hb : b ≤ 255) :
    (rgbOf r g b).clamped = rgbOf r g b := by
  simp [Rgb.clamped, rgbOf, clamp255_of_le, hr, hg, hb]

/-- The base colours of a differential block with its sums in range are bytes. -/
theorem baseDifferential_clamped {v : BitVec 64} (inRange : diffInRange v = true) (sub : Bool) :
    (baseDifferential v sub).clamped = baseDifferential v sub := by
  simp only [diffInRange, Bool.and_eq_true] at inRange
  obtain ⟨⟨r, g⟩, b⟩ := inRange
  cases sub
  case false => exact rgbOf_clamped (ext5_le (bits_lt v 7 3)) (ext5_le (bits_lt v 15 11)) (ext5_le (bits_lt v 23 19))
  case true => exact rgbOf_clamped (ext5_le (le_of_in31 r)) (ext5_le (le_of_in31 g)) (ext5_le (le_of_in31 b))

/-- R859: index 0 has the modifier 0. -/
theorem etcBlock_lumP_of_zero {v : BitVec 64} {n : Pos} (inRange : diffInRange v = true) (zero : etcIndex v n = 0) :
    etcBlock lumP true v n = baseDifferential v (etcSub v n) := by
  rw [etcBlock, zero]
  show ((baseDifferential v (etcSub v n)).plus 0).clamped = _
  rw [Rgb.plus, Int.add_zero, Int.add_zero, Int.add_zero]
  exact baseDifferential_clamped inRange _

/-- Settles O36: a texel that is no hole differs from ETC2's in the table's indices 0 and 2 only. -/
theorem etc2PunchThroughAlpha : Obligations.Etc2PunchThroughAlpha := by
  intro s v n srgb w d
  refine ⟨fun h => ⟨_, exec_etc2_withDiff v n s srgb, ?_⟩, fun opaqueClear mode two => ?_,
    fun opaqueClear mode zero => ?_⟩
  case refine_1 =>
    have noHole : ptaHole (etc2Mode true v) v n = false := by
      rw [ptaHole]
      obtain op | planar | one | three | ⟨zero, -⟩ := h
      · simp [op]
      · simp [planar]
      · simp [one]
      · simp [three]
      · simp [zero]
    have colour : etc2Colour (if bit v 25 then lum else lumP) (etc2Mode true v) v n =
        etc2Colour lum (etc2Mode true v) v n := by
      cases op : bit v 25
      case true => rfl
      case false =>
        refine etc2Colour_lumP fun mode => ?_
        obtain opaqueSet | planar | one | three | ⟨-, other⟩ := h
        · exact absurd (op.symm.trans opaqueSet) (by decide)
        · exact absurd (mode.symm.trans planar) (by decide)
        · simp [one]
        · simp [three]
        · exact absurd mode other
    refine answers_of_answer (exec_etc2Pta_of_not_hole s srgb noHole) ?_
    rw [colour]
    rfl
  case refine_2 =>
    have hole : ptaHole (etc2Mode true v) v n = true := by simp [ptaHole, opaqueClear, mode, two]
    exact answers_of_answer (exec_etc2Pta_of_hole s srgb hole) rfl
  case refine_3 =>
    have noHole : ptaHole (etc2Mode true v) v n = false := by simp [ptaHole, zero]
    have base : etcBlock lumP true v n = baseDifferential v (etcSub v n) :=
      etcBlock_lumP_of_zero (etc2Mode_eq_differential_iff.mp mode) zero
    refine answers_of_answer (exec_etc2Pta_of_not_hole s srgb noHole) ?_
    rw [opaqueClear, mode]
    show Result.texel ((etcBlock lumP true v n).texel srgb (u8 255)) = _
    rw [base]
    cases etcSub v n <;> rfl

end Sys2Proof.Machine
end

section
/-! PROOFS. EAC: the index word, the modifier of a texel and the channels of the one-block and two-block formats. -/
namespace Sys2Proof.Machine

/-- R852: bytes 2 to 7, the first of them highest. -/
theorem eacIndexWord_eq (v : BitVec 64) : eacIndexWord v =
    bits v 23 16 * 2 ^ 40 + bits v 31 24 * 2 ^ 32 + bits v 39 32 * 2 ^ 24 + bits v 47 40 * 2 ^ 16 +
      bits v 55 48 * 2 ^ 8 + bits v 63 56 := by
  simp only [eacIndexWord, List.foldl_cons, List.foldl_nil]
  omega

/-- R852: the three bits of the index word from `45 - 3k`, for the texel `k` in column order. -/
theorem eacIndex_eq (v : BitVec 64) (n : Pos) :
    eacIndex v n = eacIndexWord v / 2 ^ (45 - 3 * (4 * n.col.toNat + n.row.toNat)) % 8 := by
  have col := n.col.isLt
  have row := n.row.isLt
  have width : 47 - 3 * (4 * n.col.toNat + n.row.toNat) + 1 - (45 - 3 * (4 * n.col.toNat + n.row.toNat)) = 3 := by
    omega
  simp only [eacIndex, nbits, width, Nat.shiftRight_eq_div_pow, Nat.reducePow]

/-- `sext` of a whole field is its two's complement value (R9). -/
theorem signExt_toNat {w : Nat} (b : BitVec w) : signExt b.toNat w = b.toInt := by
  rw [signExt, Nat.mod_eq_of_lt b.isLt, BitVec.toInt_eq_toNat_cond]
  split_ifs <;> omega

theorem signExt_bits {w : Nat} (v : BitVec w) (hi lo : Nat) :
    signExt (bits v hi lo) (hi + 1 - lo) = (v.extractLsb' lo (hi + 1 - lo)).toInt := by
  rw [← signExt_toNat, BitVec.extractLsb'_toNat, bits]

/-- R854: a multiplier of 0 stands for an eighth. -/
theorem eacUnsigned_eq (v : BitVec 64) (n : Pos) : eacUnsigned v n =
    max 0 (min 2047 (8 * (bits v 7 0 : Int) + 4 + if (bits v 15 12 : Int) = 0 then eacTexelModifier v n
      else eacTexelModifier v n * bits v 15 12 * 8)) := by
  rw [eacUnsigned, clampI, Int.mul_comm (bits v 7 0)]
  simp only [Int.natCast_eq_zero]

theorem eacSigned_eq (v : BitVec 64) (n : Pos) : eacSigned v n =
    max (-1023) (min 1023 (8 * max (-127) (v.extractLsb' 0 8).toInt + if (bits v 15 12 : Int) = 0 then
      eacTexelModifier v n else eacTexelModifier v n * bits v 15 12 * 8)) := by
  rw [eacSigned, clampI, Int.mul_comm (max _ _), show signExt (bits v 7 0) 8 = _ from signExt_bits v 7 0]
  simp only [Int.natCast_eq_zero]

/-- R864, R868: the low and the high half of a 16-byte block. -/
theorem blockLow_eq (v : BitVec 128) : blockLow v = v.extractLsb' 0 64 := rfl

theorem blockHigh_eq (v : BitVec 128) : blockHigh v = v.extractLsb' 64 64 := by
  rw [blockHigh, ← Nat.shiftRight_eq_div_pow]
  rfl

/-- Settles O37: one block by its modifier; a two-block format takes each channel from the half that the rule names. -/
theorem eacDecodes : Obligations.EacDecodes := by
  intro s n
  refine ⟨fun v => ?_, fun v signed => ⟨_, _, rfl, rfl, ?_⟩, fun v srgb => ⟨_, _, rfl, rfl, ?_⟩⟩
  case refine_1 =>
    intro w im m
    have modifier : eacTexelModifier v n = im := by
      rw [eacTexelModifier, eacIndex_eq, eacIndexWord_eq]
    refine ⟨answers_of_answer rfl ?_, answers_of_answer rfl ?_, answers_of_answer rfl ?_⟩
    case refine_1 =>
      rw [eac11Chan, eacUnsigned_eq, modifier]
      rfl
    case refine_2 =>
      rw [eac11Chan, eacSigned_eq, modifier]
      rfl
    case refine_3 =>
      rw [eac8, modifier]
      rfl
  case refine_2 =>
    rw [← blockLow_eq, ← blockHigh_eq]
    rfl
  case refine_3 =>
    rw [← blockLow_eq, ← blockHigh_eq]
    rfl

end Sys2Proof.Machine
end

section
/-! PROOFS. FXT1: the row that a block selects, and the colours of each row as the rules print them (R920 to R940). -/
namespace Sys2Proof.Machine

/-- A field whose width depends on the texel, by the width it always has. -/
theorem bits_lt_of_width {w : Nat} (v : BitVec w) {hi lo n : Nat} (width : hi + 1 - lo = n) : bits v hi lo < 2 ^ n :=
  width ▸ bits_lt v hi lo

theorem bit_eq_getLsbD {w : Nat} (v : BitVec w) (i : Nat) : bit v i = v.getLsbD i :=
  (bit_eq_testBit v i).trans (BitVec.testBit_toNat v)

/-- Settles O38: the colour of `FXT1.DECODE` is, branch by branch, that of the row of the same branch. -/
theorem fxt1SelectsItsMode : Obligations.Fxt1SelectsItsMode := by
  intro s v t
  refine ⟨?_, _, _, _, _, rfl⟩
  show answer s (.texel (fxt1Colour v t.toNat).texel) = _
  simp only [fxt1Colour, bit_eq_getLsbD]
  cases v.getLsbD 127
  case true => rfl
  case false =>
    cases v.getLsbD 126
    case false => rfl
    case true => cases v.getLsbD 125 <;> rfl

/-! ### Selects and colours -/

/-- R932: a green of 5 bits with a sixth below. -/
theorem colour565_eq (v : BitVec 128) (lo : Nat) {lsb : Nat} (h : lsb < 2) : colour565 v lo lsb =
    ⟨e5 (bits v (lo + 14) (lo + 10)), e6 (2 * bits v (lo + 9) (lo + 5) + lsb), e5 (bits v (lo + 4) lo), 255⟩ := by
  have green : bits v (lo + 9) (lo + 5) <<< 1 ||| lsb = 2 * bits v (lo + 9) (lo + 5) + lsb := by
    rw [← Nat.shiftLeft_add_eq_or_of_lt (i := 1) h, Nat.shiftLeft_eq, Nat.mul_comm, Nat.pow_one]
  rw [colour565, green]

theorem fxt1Select_lt (v : BitVec 128) (t : Nat) : fxt1Select v t < 4 :=
  bits_lt_of_width v (n := 2) (by omega)

/-- R926: the end colours are those that the interpolation gives for the selects 0 and 6. -/
theorem fxt1HiColour_of_ne_seven {v : BitVec 128} {t : Nat} (h : bits v (3 * t + 2) (3 * t) ≠ 7) :
    fxt1HiColour v t = (blend (6 - bits v (3 * t + 2) (3 * t)) (colour555 v 96 255)
      (bits v (3 * t + 2) (3 * t)) (colour555 v 111 255) 3 6).withAlpha 255 := by
  have start (x : Nat) : (6 * x + 3) / 6 = x := by omega
  unfold fxt1HiColour
  split
  next k0 => simp [k0, blend, Argb8.withAlpha, colour555, start]
  next k6 => simp [k6, blend, Argb8.withAlpha, colour555, start]
  next k7 => exact absurd k7 h
  next => rfl

theorem fxt1HiColour_of_seven {v : BitVec 128} {t : Nat} (h : bits v (3 * t + 2) (3 * t) = 7) :
    fxt1HiColour v t = transparentBlack := by
  simp [fxt1HiColour, h]

/-- R932, R940: the four colours, channel by channel. -/
theorem fxt1Lerp_eq (x y : Argb8) (k : Nat) : fxt1Lerp x y k =
    let f (x y : Nat) : Nat :=
      if k = 0 then x else if k = 1 then (2 * x + y + 1) / 3 else if k = 2 then (x + 2 * y + 1) / 3 else y
    ⟨f x.r y.r, f x.g y.g, f x.b y.b, f x.a y.a⟩ := by
  match k with
  | 0 | 1 | 2 | k + 3 => simp [fxt1Lerp, blend]

/-- R938: with Alpha[0] = 0 the selects 0 to 2 are the three colours, each with the alpha of its own. -/
theorem fxt1AlphaColour_of_lookup {v : BitVec 128} (lookup : bit v 124 = false) (t : Nat) : fxt1AlphaColour v t =
    let k := fxt1Select v t
    if k = 3 then transparentBlack
    else colour555 v (64 + 15 * k) (e5 (bits v (109 + 5 * k + 4) (109 + 5 * k))) := by
  have small := fxt1Select_lt v t
  rw [fxt1AlphaColour, lookup]
  match k : fxt1Select v t with
  | 0 | 1 | 2 | 3 => rfl
  | k' + 4 => omega

/-- R934, R936: the two colours of the half, their mean and the transparent one, channel by channel. -/
theorem fxt1MixedAlpha_eq (v : BitVec 128) (t : Nat) : fxt1MixedAlpha v t =
    let x := if t < 16 then colour555 v 64 255 else colour555 v 94 255
    let y := if t < 16 then colour565 v 79 (bits v 125 125) else colour565 v 109 (bits v 126 126)
    let k := fxt1Select v t
    let f (x y : Nat) : Nat := if k = 0 then x else if k = 1 then (x + y) / 2 else if k = 2 then y else 0
    ⟨f x.r y.r, f x.g y.g, f x.b y.b, if k = 3 then 0 else 255⟩ := by
  have small := fxt1Select_lt v t
  by_cases half : t < 16
  all_goals
    match k : fxt1Select v t with
    | 0 | 1 | 2 | 3 => simp [fxt1MixedAlpha, k, half, blend, colour555, colour565, transparentBlack]
    | k' + 4 => omega

/-! ### The rows -/

/-- Settles O39: CC_HI by whether the select is 7; CC_CHROMA is the colour of its select as it stands. -/
theorem fxt1HiAndChromaDecode : Obligations.Fxt1HiAndChromaDecode := by
  intro s v t
  refine ⟨?_, answers_of_answer rfl rfl⟩
  intro k ch
  refine answers_of_answer rfl (congrArg Result.texel ?_)
  split
  next seven => rw [fxt1HiColour_of_seven seven]; rfl
  next other => rw [fxt1HiColour_of_ne_seven other]; rfl

/-- Settles O40: CC_MIXED and CC_ALPHA by bit 124, and where the half of the texel chooses the colours by the half. -/
theorem fxt1MixedAndAlphaDecode : Obligations.Fxt1MixedAndAlphaDecode := by
  intro s v t k h lerp mid o gy gx a
  have lsb (i : Nat) : bits v i i < 2 := bits_lt_of_width v (n := 1) (by omega)
  have lsbXor (i j : Nat) : bits v i i ^^^ bits v j j < 2 := Nat.xor_lt_two_pow (n := 1) (lsb i) (lsb j)
  refine ⟨fun clear => ?_, fun set => ?_, fun set => ?_, fun clear => ?_⟩ <;>
    refine answers_of_answer rfl (congrArg Result.texel ?_)
  case refine_1 =>
    rw [fxt1MixedColour, clear, if_neg Bool.false_ne_true, fxt1MixedOpaque]
    simp only [colour565_eq v _ (lsb _), colour565_eq v _ (lsbXor _ _), fxt1Lerp_eq]
    by_cases first : t.toNat < 16
    all_goals
      simp only [first, if_true, if_false, o, gx, gy, h]
      rfl
  case refine_2 =>
    rw [fxt1MixedColour, set, if_pos rfl, fxt1MixedAlpha_eq]
    simp only [colour565_eq v _ (lsb _)]
    by_cases first : t.toNat < 16
    all_goals
      simp only [first, if_true, if_false, o, gy, h]
      rfl
  case refine_3 =>
    rw [fxt1AlphaColour, set, if_pos rfl, fxt1Lerp_eq]
    by_cases first : t.toNat < 16
    all_goals
      simp only [first, if_true, if_false, o, a, h]
      rfl
  case refine_4 =>
    rw [fxt1AlphaColour_of_lookup clear]
    by_cases transparent : k = 3
    · rw [if_pos transparent]
      exact congrArg Argb8.texel (if_pos transparent)
    · rw [if_neg transparent]
      exact congrArg Argb8.texel (if_neg transparent)

end Sys2Proof.Machine
end

section
/-! PROOFS. DXT1, DXT1_RGB, DXT3, DXT5, BC4 and BC5: the colour of a 2-bit code and the value of a 3-bit code (R950 to
R972). -/
namespace Sys2Proof.Machine

/-! ### Colours (R955, R957) -/

/-- A field of a field. -/
theorem nbits_bits {w : Nat} (v : BitVec w) {hi lo a : Nat} (b : Nat) (inside : lo + a ≤ hi) :
    nbits (bits v hi lo) a b = bits v (lo + a) (lo + b) := by
  refine Nat.eq_of_testBit_eq fun i => ?_
  have width : (i < lo + a + 1 - (lo + b)) ↔ i < a + 1 - b := by omega
  have within : i < a + 1 - b → b + i < hi + 1 - lo := by omega
  simp only [nbits, Nat.testBit_mod_two_pow, Nat.testBit_shiftRight, testBit_bits, width, ← Nat.add_assoc]
  by_cases small : i < a + 1 - b
  · simp [small, within small]
  · simp [small]

/-- R954: the R5G6B5 word from bit `lo` of a block. -/
theorem colourWord_bits (v : BitVec 64) (lo : Nat) : colourWord (bits v (lo + 15) lo) =
    ⟨e5 (bits v (lo + 15) (lo + 11)), e6 (bits v (lo + 10) (lo + 5)), e5 (bits v (lo + 4) lo), 255⟩ := by
  rw [colourWord, nbits_bits v 11 (by omega), nbits_bits v 5 (by omega), nbits_bits v 0 (by omega)]
  rfl

theorem dxtCode_lt (v : BitVec 64) (p : Nat) : bits v (32 + 2 * p + 1) (32 + 2 * p) < 4 :=
  bits_lt_of_width v (n := 2) (by omega)

section
variable {four : Bool} {v : BitVec 64} (n : Pos)

/-- R955, R957: the block of four colours. -/
theorem dxt1Colour_of_four (h : four = true ∨ bits v 15 0 > bits v 31 16) : dxt1Colour four v n =
    let k := bits v (32 + 2 * texelNumber n + 1) (32 + 2 * texelNumber n)
    let f (x y : Nat) : Nat :=
      if k = 0 then x else if k = 1 then y else if k = 2 then (2 * x + y) / 3 else (x + 2 * y) / 3
    ⟨f (e5 (bits v 15 11)) (e5 (bits v 31 27)), f (e6 (bits v 10 5)) (e6 (bits v 26 21)),
      f (e5 (bits v 4 0)) (e5 (bits v 20 16)), 255⟩ := by
  have fourColours : (four || decide (bits v 15 0 > bits v 31 16)) = true := by simpa using h
  have x := colourWord_bits v 0
  have y := colourWord_bits v 16
  norm_num only at x y
  rw [dxt1Colour, fourColours, if_pos rfl, x, y]
  match bits v (32 + 2 * texelNumber n + 1) (32 + 2 * texelNumber n) with
  | 0 | 1 | 2 | k + 3 => simp [blend]

/-- R955: the block of three colours and the transparent one. -/
theorem dxt1Colour_of_three (h : bits v 15 0 ≤ bits v 31 16) : dxt1Colour false v n =
    let k := bits v (32 + 2 * texelNumber n + 1) (32 + 2 * texelNumber n)
    let g (x y : Nat) : Nat := if k = 0 then x else if k = 1 then y else if k = 2 then (x + y) / 2 else 0
    ⟨g (e5 (bits v 15 11)) (e5 (bits v 31 27)), g (e6 (bits v 10 5)) (e6 (bits v 26 21)),
      g (e5 (bits v 4 0)) (e5 (bits v 20 16)), if k = 3 then 0 else 255⟩ := by
  have small := dxtCode_lt v (texelNumber n)
  have threeColours : (false || decide (bits v 15 0 > bits v 31 16)) = false := by simpa using h
  have x := colourWord_bits v 0
  have y := colourWord_bits v 16
  norm_num only at x y
  rw [dxt1Colour, threeColours, if_neg Bool.false_ne_true, x, y]
  match code : bits v (32 + 2 * texelNumber n + 1) (32 + 2 * texelNumber n) with
  | 0 | 1 | 2 | 3 => simp [blend, transparentBlack]
  | k + 4 => omega

end

/-! ### Values between two end values (R964, R970) -/

theorem code3_lt (v : BitVec 64) (n : Pos) : code3 v n < 8 :=
  bits_lt_of_width v (n := 3) (by omega)

theorem interpolate8_eq (a0 a1 lo hi : Int) (k : Nat) : interpolate8 a0 a1 lo hi k =
    if k = 0 then a0 else if k = 1 then a1
    else if a0 > a1 then Int.tdiv ((8 - (k : Int)) * a0 + ((k : Int) - 1) * a1) 7
    else if k = 6 then lo else if k = 7 then hi
    else Int.tdiv ((6 - (k : Int)) * a0 + ((k : Int) - 1) * a1) 5 := by
  by_cases order : a0 > a1
  · match k with
    | 0 | 1 | k + 2 => simp [interpolate8.eq_def, order]
  · match k with
    | 0 | 1 | 2 | 3 | 4 | 5 | 6 | 7 | k + 8 => simp [interpolate8.eq_def, order]

/-- Between end values that are no negative numbers, the weights and the division are those of natural numbers. -/
theorem toNat_tdiv_weighted {n k : Nat} (a0 a1 d : Nat) (first : 1 ≤ k) (last : k ≤ n) :
    (Int.tdiv (((n : Int) - k) * a0 + ((k : Int) - 1) * a1) d).toNat = ((n - k) * a0 + (k - 1) * a1) / d := by
  have cast : ((n : Int) - k) * a0 + ((k : Int) - 1) * a1 = (((n - k) * a0 + (k - 1) * a1 : Nat) : Int) := by
    push_cast [first, last]
    rfl
  rw [cast, ← Int.ofNat_tdiv, Int.toNat_natCast]

/-- R964, R966, R970. -/
theorem interpolatedUnorm_eq (v : BitVec 64) (n : Pos) : interpolatedUnorm v n =
    let k := code3 v n
    let a0 := bits v 7 0
    let a1 := bits v 15 8
    if k = 0 then a0 else if k = 1 then a1 else if a0 > a1 then ((8 - k) * a0 + (k - 1) * a1) / 7
    else if k = 6 then 0 else if k = 7 then 255 else ((6 - k) * a0 + (k - 1) * a1) / 5 := by
  have small := code3_lt v n
  rw [interpolatedUnorm, interpolate8_eq]
  generalize code3 v n = k at small
  simp only [apply_ite Int.toNat, Int.toNat_natCast, gt_iff_lt, Int.ofNat_lt]
  split_ifs with zero one order six seven
  · rfl
  · rfl
  · exact toNat_tdiv_weighted (n := 8) _ _ 7 (by omega) (by omega)
  · rfl
  · rfl
  · exact toNat_tdiv_weighted (n := 6) _ _ 5 (by omega) (by omega)

/-- R970, U24: the references are the two low bytes as signed numbers. -/
theorem bc4Snorm_eq (v : BitVec 64) (n : Pos) : bc4Snorm v n =
    max (-127) (interpolate8 (v.extractLsb' 0 8).toInt (v.extractLsb' 8 8).toInt (-127) 127 (code3 v n)) := by
  rw [bc4Snorm, show signExt (bits v 7 0) 8 = _ from signExt_bits v 7 0,
    show signExt (bits v 15 8) 8 = _ from signExt_bits v 15 8]

/-- The low block is the field of the bits 63:0. -/
theorem bits_blockLow (v : BitVec 128) {hi : Nat} (lo : Nat) (inside : hi < 64) :
    bits (blockLow v) hi lo = bits v hi lo := by
  calc bits (blockLow v) hi lo = nbits (bits v 63 0) hi lo := rfl
    _ = bits v (0 + hi) (0 + lo) := nbits_bits v lo (by omega)
    _ = bits v hi lo := by rw [Nat.zero_add, Nat.zero_add]

theorem texelNumber_lt (n : Pos) : texelNumber n < 16 := by
  have row := n.row.isLt
  have col := n.col.isLt
  rw [texelNumber]
  omega

/-! ### The formats -/

/-- Settles O41: DXT1 by the order of its two words; DXT3 and DXT5 put their alpha beside the colour of DXT1_RGB. -/
theorem dxtBlocksDecode : Obligations.DxtBlocksDecode := by
  intro s n p
  refine ⟨fun v srgb => ?_, fun v => ⟨_, rfl, ?_, ?_⟩⟩
  case refine_1 =>
    intro k f g
    refine ⟨fun above => answers_of_answer rfl ?_, fun below => answers_of_answer rfl ?_, answers_of_answer rfl ?_⟩
    case refine_1 =>
      rw [dxt1Colour_of_four n (.inr above)]
      rfl
    case refine_2 =>
      rw [dxt1Colour_of_three n below]
      rfl
    case refine_3 =>
      rw [dxt1Colour_of_four n (.inl rfl)]
      rfl
  case refine_2 =>
    refine answers_of_answer rfl ?_
    rw [dxt3Alpha, replicate4_eq, blockHigh_eq]
    rfl
  case refine_3 =>
    refine answers_of_answer rfl ?_
    have inBlock := texelNumber_lt n
    rw [interpolatedUnorm_eq, blockHigh_eq, code3, bits_blockLow v _ (by omega), bits_blockLow v _ (by omega),
      bits_blockLow v _ (by omega)]
    rfl

/-- Settles O42: BC4 by the value of its code, BC5 as BC4 of each half. -/
theorem bc4AndBc5Decode : Obligations.Bc4AndBc5Decode := by
  intro s n p
  refine ⟨fun v => ?_, fun v sn => ⟨_, _, rfl, rfl, ?_⟩⟩
  case refine_1 =>
    intro k a0 a1 b0 b1
    refine ⟨answers_of_answer rfl ?_, answers_of_answer rfl ?_⟩
    case refine_1 =>
      rw [bc4Chan, interpolatedUnorm_eq]
      rfl
    case refine_2 =>
      rw [bc4Chan, bc4Snorm_eq, interpolate8_eq]
      rfl
  case refine_2 =>
    rw [← blockLow_eq, ← blockHigh_eq]
    rfl

end Sys2Proof.Machine
end

section
/-! PROOFS. The mode that a BC6H or a BC7 block selects (R1001, R1042): BC6H.DECODE and BC7.DECODE answer what its row
answers. -/
namespace Sys2Proof.Machine

/-! ### BC6H (R1001) -/

section
variable {v : BitVec 128} (n : Pos) (signed : Bool) (s : State)

theorem exec_bc6h_of_mode {m : Bc6Mode} (h : bc6ModeOf v = some m) :
    exec (.bc6h v n signed) s = answer s (.texel (bc6Texel m v n signed)) := by
  show answer s (.texel (bc6hDecoded v n signed)) = _
  rw [bc6hDecoded, h]

theorem exec_bc6h_of_undefined (h : bc6ModeOf v = none) :
    exec (.bc6h v n signed) s = answer s (.texel bc6Undefined) := by
  show answer s (.texel (bc6hDecoded v n signed)) = _
  rw [bc6hDecoded, h]

end

/-- The field of the low bits. -/
theorem bits_zero {w : Nat} (v : BitVec w) (hi : Nat) : bits v hi 0 = v.toNat % 2 ^ (hi + 1) := rfl

/-- The mode bits are among the low five bits of the block. -/
theorem bc6ModeOf_eq_of_low {v : BitVec 128} {k : Nat} (low : v.toNat % 32 = k) :
    bc6ModeOf v = bc6ModeOf (BitVec.ofNat 128 k) := by
  have lowest : bits v 1 0 = bits (BitVec.ofNat 128 k) 1 0 := by
    simp only [bits_zero, BitVec.toNat_ofNat]
    omega
  have fifth : bits v 4 0 = bits (BitVec.ofNat 128 k) 4 0 := by
    simp only [bits_zero, BitVec.toNat_ofNat]
    omega
  rw [bc6ModeOf, bc6ModeOf, lowest, fifth]

theorem bc6ModeOf_zero {v : BitVec 128} (low : v.toNat % 4 = 0) : bc6ModeOf v = some bc6Mode0 := by
  simp [bc6ModeOf, show bits v 1 0 = 0 from low]

theorem bc6ModeOf_one {v : BitVec 128} (low : v.toNat % 4 = 1) : bc6ModeOf v = some bc6Mode1 := by
  simp [bc6ModeOf, show bits v 1 0 = 1 from low]

/-- Settles O43: the mode bits are closed, so the selection is evaluated for each of the 18 values. -/
theorem bc6hSelectsItsMode : Obligations.Bc6hSelectsItsMode := by
  intro s v n sg
  have row {k : Nat} {m : Bc6Mode} (selects : bc6ModeOf (BitVec.ofNat 128 k) = some m) (low : v.toNat % 32 = k) :
      exec (.bc6h v n sg) s = answer s (.texel (bc6Texel m v n sg)) :=
    exec_bc6h_of_mode n sg s ((bc6ModeOf_eq_of_low low).trans selects)
  have undefined {k : Nat} (selects : bc6ModeOf (BitVec.ofNat 128 k) = none) (low : v.toNat % 32 = k) :
      exec (.bc6h v n sg) s = answer s (.texel bc6Undefined) :=
    exec_bc6h_of_undefined n sg s ((bc6ModeOf_eq_of_low low).trans selects)
  exact ⟨fun low => exec_bc6h_of_mode n sg s (bc6ModeOf_zero low),
    fun low => exec_bc6h_of_mode n sg s (bc6ModeOf_one low),
    row rfl, row rfl, row rfl, row rfl, row rfl, row rfl, row rfl, row rfl, row rfl, row rfl, row rfl, row rfl,
    undefined rfl, undefined rfl, undefined rfl, undefined rfl, rfl, rfl, rfl, rfl⟩

/-! ### BC7 (R1042) -/

section
variable {v : BitVec 128} (n : Pos) (srgb : Bool) (s : State)

theorem exec_bc7_of_mode {m : Bc7Mode} (h : bc7ModeOf v = some m) :
    exec (.bc7 v n srgb) s = answer s (.texel (bc7Texel m v n srgb)) := by
  show answer s (.texel (bc7Decoded v n srgb)) = _
  rw [bc7Decoded, h]

theorem exec_bc7_of_undefined (h : bc7ModeOf v = none) :
    exec (.bc7 v n srgb) s = answer s (.texel bc7Undefined) := by
  show answer s (.texel (bc7Decoded v n srgb)) = _
  rw [bc7Decoded, h]

end

/-- R1042: a block whose low eight bits are 0 has no mode. -/
theorem bc7ModeOf_eq_none {v : BitVec 128} (zero : v.toNat % 256 = 0) : bc7ModeOf v = none := by
  have clear (i : Nat) (low : i < 8) : bit v i = false := by
    have masked := Nat.testBit_mod_two_pow v.toNat 8 i
    rw [show v.toNat % 2 ^ 8 = 0 from zero, Nat.zero_testBit] at masked
    rw [bit_eq_testBit]
    simpa [low] using masked.symm
  simp [bc7ModeOf, clear]

/-- Settles O45: the bits below the lowest 1 bit are 0, so the selection passes over their modes. -/
theorem bc7SelectsItsMode : Obligations.Bc7SelectsItsMode := by
  intro s v n srgb
  simp only [← bit_eq_getLsbD]
  have row {m : Bc7Mode} (selects : bc7ModeOf v = some m) :
      exec (.bc7 v n srgb) s = answer s (.texel (bc7Texel m v n srgb)) := exec_bc7_of_mode n srgb s selects
  refine ⟨fun b0 => row ?_, fun b0 b1 => row ?_, fun b0 b1 b2 => row ?_, fun b0 b1 b2 b3 => row ?_,
    fun b0 b1 b2 b3 b4 => row ?_, fun b0 b1 b2 b3 b4 b5 => row ?_, fun b0 b1 b2 b3 b4 b5 b6 => row ?_,
    fun b0 b1 b2 b3 b4 b5 b6 b7 => row ?_, fun zero => exec_bc7_of_undefined n srgb s (bc7ModeOf_eq_none zero), rfl⟩
  all_goals simp [bc7ModeOf, *]

end Sys2Proof.Machine
end

section
/-! PROOFS. The endpoints of a BC6H row: a field is its pieces joined most significant first, and an endpoint is what the
rules make of the fields (R1002 to R1020). -/
namespace Sys2Proof.Machine

/-! ### Fields (R1002) -/

/-- The pieces `(hi, lo)` of a field, most significant first, joined. -/
def joined (v : BitVec 128) (l : List (Nat × Nat)) : Nat :=
  l.foldl (fun a x => a * 2 ^ (x.1 + 1 - x.2) + bits v x.1 x.2) 0

def joinedWidth (l : List (Nat × Nat)) : Nat := (l.map fun x => x.1 + 1 - x.2).sum

/-- The pieces of a joined field as a mode lists them: each with the bit of the field where it begins. -/
def placed : List (Nat × Nat) → List (Nat × Nat × Nat)
  | [] => []
  | x :: l => (x.1, x.2, joinedWidth l) :: placed l

/-- The pieces of one field of a mode. -/
def Bc6Mode.fieldPieces (m : Bc6Mode) (ch : Bc6Chan) (ep : Bc6End) : List (Nat × Nat × Nat) :=
  (m.pieces.filter fun p => p.ch = ch ∧ p.ep = ep).map fun p => (p.hi, p.lo, p.first)

/-- The value of placed pieces. -/
def placedSum (v : BitVec 128) (l : List (Nat × Nat × Nat)) : Nat := (l.map fun x => bits v x.1 x.2.1 * 2 ^ x.2.2).sum

theorem foldl_join (v : BitVec 128) (l : List (Nat × Nat)) (acc : Nat) :
    l.foldl (fun a x => a * 2 ^ (x.1 + 1 - x.2) + bits v x.1 x.2) acc =
      acc * 2 ^ joinedWidth l + placedSum v (placed l) := by
  induction l generalizing acc with
  | nil => simp [joinedWidth, placed, placedSum]
  | cons x l ih =>
    rw [List.foldl_cons, ih]
    simp only [joinedWidth, placed, placedSum, List.map_cons, List.sum_cons, Nat.pow_add]
    ring

theorem joined_eq_placedSum (v : BitVec 128) (l : List (Nat × Nat)) : joined v l = placedSum v (placed l) := by
  rw [joined, foldl_join, Nat.zero_mul, Nat.zero_add]

theorem joined_lt (v : BitVec 128) (l : List (Nat × Nat)) : joined v l < 2 ^ joinedWidth l := by
  rw [joined_eq_placedSum]
  induction l with
  | nil => simp [placed, placedSum, joinedWidth]
  | cons x l ih =>
    have piece : bits v x.1 x.2 + 1 ≤ 2 ^ (x.1 + 1 - x.2) := bits_lt v x.1 x.2
    calc placedSum v (placed (x :: l))
        = bits v x.1 x.2 * 2 ^ joinedWidth l + placedSum v (placed l) := rfl
      _ < (bits v x.1 x.2 + 1) * 2 ^ joinedWidth l := by rw [Nat.succ_mul]; omega
      _ ≤ 2 ^ (x.1 + 1 - x.2) * 2 ^ joinedWidth l := Nat.mul_le_mul_right _ piece
      _ = 2 ^ joinedWidth (x :: l) := (Nat.pow_add ..).symm

/-- R1002: a field is the sum of its pieces. -/
theorem bc6Field_eq_placedSum (m : Bc6Mode) (v : BitVec 128) (ch : Bc6Chan) (ep : Bc6End) :
    bc6Field v m.pieces ch ep = placedSum v (m.fieldPieces ch ep) := by
  have fold (ps : List Bc6Piece) (acc : Nat) :
      ps.foldl (fun acc p => if p.ch = ch ∧ p.ep = ep then acc + bits v p.hi p.lo <<< p.first else acc) acc =
        acc + placedSum v ((ps.filter fun p => p.ch = ch ∧ p.ep = ep).map fun p => (p.hi, p.lo, p.first)) := by
    induction ps generalizing acc with
    | nil => rfl
    | cons p ps ih =>
      rw [List.foldl_cons, ih]
      by_cases here : p.ch = ch ∧ p.ep = ep
      · simp [here, placedSum, Nat.shiftLeft_eq, Nat.add_assoc]
      · simp [here]
  rw [bc6Field, fold, Nat.zero_add]
  rfl

/-- Pieces in another order are the same field. -/
theorem bc6Field_eq_joined {m : Bc6Mode} {ch : Bc6Chan} {ep : Bc6End} {l : List (Nat × Nat)}
    (same : (m.fieldPieces ch ep).Perm (placed l)) (v : BitVec 128) : bc6Field v m.pieces ch ep = joined v l := by
  rw [bc6Field_eq_placedSum, joined_eq_placedSum]
  exact (same.map _).sum_eq

/-! ### Endpoints (R1019, R1020) -/

/-- A number of `k` bits read as two's complement. -/
def twosComplement (k x : Nat) : Int := if 2 ^ (k - 1) ≤ x then (x : Int) - 2 ^ k else x

theorem two_pow_eq_double {k : Nat} (positive : 0 < k) : 2 ^ k = 2 * 2 ^ (k - 1) := by
  rw [← Nat.pow_succ', Nat.succ_eq_add_one, Nat.sub_add_cancel positive]

theorem signExt_of_lt {k x : Nat} (positive : 0 < k) (small : x < 2 ^ k) : signExt x k = twosComplement k x := by
  have double := two_pow_eq_double positive
  have half : 2 ^ k ≤ 2 * x ↔ 2 ^ (k - 1) ≤ x := by omega
  simp [signExt, twosComplement, Nat.mod_eq_of_lt small, half]

/-- A value of `k` bits, signed or not. -/
def extended (signed : Bool) (k x : Nat) : Int := if signed then twosComplement k x else x

theorem extendTo_of_lt (signed : Bool) {k x : Nat} (positive : 0 < k) (small : x < 2 ^ k) :
    extendTo signed k x = extended signed k x := by
  rw [extendTo, extended, signExt_of_lt positive small, Nat.mod_eq_of_lt small]

theorem extendTo_mod (signed : Bool) (k x : Nat) : extendTo signed k (x % 2 ^ k) = extendTo signed k x := by
  simp [extendTo, signExt]

/-- D34: a sum in 16-bit arithmetic, reduced to at most 16 bits, is the sum modulo the precision. -/
theorem extendTo_sum (signed : Bool) {p : Nat} (positive : 0 < p) (most : p ≤ 16) (x : Int) :
    extendTo signed p (x % 65536).toNat = extended signed p (x % 2 ^ p).toNat := by
  have reduced : (x % 65536).toNat % 2 ^ p = (x % 2 ^ p).toNat := by
    have divides : (2 : Int) ^ p ∣ 65536 := pow_dvd_pow 2 most
    rw [← Int.emod_emod_of_dvd x divides, Int.toNat_emod (Int.emod_nonneg x (by decide)) (by positivity)]
    congr 1
  have small : (x % 2 ^ p).toNat < 2 ^ p := reduced ▸ Nat.mod_lt _ (Nat.two_pow_pos p)
  rw [← extendTo_mod, reduced, extendTo_of_lt signed positive small]

/-- The bounds of a value of `p` bits. -/
def EndpointRange (signed : Bool) (p : Nat) (e : Int) : Prop :=
  if signed then -2 ^ (p - 1) ≤ e ∧ e < 2 ^ (p - 1) else 0 ≤ e ∧ e < 2 ^ p

theorem extendTo_range (signed : Bool) {p : Nat} (positive : 0 < p) (x : Nat) :
    EndpointRange signed p (extendTo signed p x) := by
  have small : x % 2 ^ p < 2 ^ p := Nat.mod_lt _ (Nat.two_pow_pos p)
  rw [← extendTo_mod, extendTo_of_lt signed positive small]
  generalize x % 2 ^ p = y at small
  cases signed
  case false =>
    show 0 ≤ (y : Int) ∧ (y : Int) < 2 ^ p
    exact_mod_cast And.intro (Nat.zero_le y) small
  case true =>
    show -2 ^ (p - 1) ≤ twosComplement p y ∧ twosComplement p y < 2 ^ (p - 1)
    have double : (2 : Int) ^ p = 2 * 2 ^ (p - 1) := by exact_mod_cast two_pow_eq_double positive
    zify at small
    rw [twosComplement]
    split
    next upper => zify at upper; omega
    next lower => zify at lower; omega

/-! ### The table of a mode (R1003 to R1016) -/

/-- The place of a channel among the fields of an endpoint. -/
def Bc6Chan.index : Bc6Chan → Nat
  | .r => 0
  | .g => 1
  | .b => 2

/-- The place of an endpoint in a table of fields. -/
def Bc6End.index : Bc6End → Nat
  | .w => 0
  | .x => 1
  | .y => 2
  | .z => 3

/-- The delta bits of the channels; none where the endpoints are no deltas. -/
def Bc6Mode.deltas (m : Bc6Mode) : List Nat :=
  match m.delta with
  | none => []
  | some d => [d.r, d.g, d.b]

/-- The bits of a field of a mode. -/
def Bc6Mode.fieldWidth (m : Bc6Mode) (ch : Bc6Chan) (ep : Bc6End) : Nat :=
  if ep = .w ∨ m.deltas = [] then m.precision else m.deltas.getD ch.index 0

/-- `fs` are the fields of the mode, three for each endpoint, each as its pieces from the most significant on. -/
def Bc6Mode.hasFields (m : Bc6Mode) (fs : List (List (Nat × Nat))) : Bool :=
  [Bc6Chan.r, .g, .b].all fun ch => [Bc6End.w, .x, .y, .z].all fun ep =>
    let l := fs.getD (3 * ep.index + ch.index) []
    (m.fieldPieces ch ep).isPerm (placed l) && decide (joinedWidth l ≤ m.fieldWidth ch ep) &&
      decide (0 < m.fieldWidth ch ep)

section
variable {m : Bc6Mode} (signed : Bool) (v : BitVec 128) (ch : Bc6Chan) {ep : Bc6End}

theorem bc6Endpoint_of_whole (whole : ep = .w ∨ m.deltas = []) :
    bc6Endpoint m signed v ch ep = extendTo signed m.precision (bc6Field v m.pieces ch ep) := by
  obtain rfl | noDeltas := whole
  · rfl
  · match delta : m.delta with
    | none => cases ep <;> simp [bc6Endpoint, delta]
    | some d => simp [Bc6Mode.deltas, delta] at noDeltas

/-- R1019: a delta is added to `w` in 16-bit arithmetic. -/
theorem bc6Endpoint_of_delta (delta : ¬(ep = .w ∨ m.deltas = [])) :
    bc6Endpoint m signed v ch ep = extendTo signed m.precision
      ((extendTo signed m.precision (bc6Field v m.pieces ch .w) +
        signExt (bc6Field v m.pieces ch ep) (m.deltas.getD ch.index 0)) % 65536).toNat := by
  obtain ⟨notFirst, someDeltas⟩ := not_or.mp delta
  match deltaBits : m.delta with
  | none => simp [Bc6Mode.deltas, deltaBits] at someDeltas
  | some d =>
    have width : m.deltas.getD ch.index 0 = d.of ch := by
      rw [Bc6Mode.deltas, deltaBits]
      cases ch <;> rfl
    rw [width]
    cases ep with
    | w => exact absurd rfl notFirst
    | x | y | z => simp [bc6Endpoint, deltaBits]

end

/-- R1019, R1020: endpoint `j` of channel `c` is `w`, a field of its own, or `w` and a delta. -/
def rowEndpoint (signed : Bool) (p : Nat) (ds : List Nat) (fs : List (List (Nat × Nat))) (v : BitVec 128) (c j : Nat) :
    Int :=
  if j = 0 ∨ ds = [] then extended signed p (joined v (fs.getD (3 * j + c) []))
  else extended signed p ((extended signed p (joined v (fs.getD c [])) +
    twosComplement (ds.getD c 0) (joined v (fs.getD (3 * j + c) []))) % 2 ^ p).toNat

section
variable {m : Bc6Mode} {fs : List (List (Nat × Nat))} (table : m.hasFields fs = true)
include table

theorem Bc6Mode.field_of_hasFields (ch : Bc6Chan) (ep : Bc6End) :
    (m.fieldPieces ch ep).Perm (placed (fs.getD (3 * ep.index + ch.index) [])) ∧
      joinedWidth (fs.getD (3 * ep.index + ch.index) []) ≤ m.fieldWidth ch ep ∧ 0 < m.fieldWidth ch ep := by
  have channel : ch ∈ [Bc6Chan.r, .g, .b] := by cases ch <;> decide
  have endpoint : ep ∈ [Bc6End.w, .x, .y, .z] := by cases ep <;> decide
  have here := List.all_eq_true.mp (List.all_eq_true.mp table ch channel) ep endpoint
  simpa [List.isPerm_iff, and_assoc] using here

/-- A field of the mode is the joined field of its table, and fits its width. -/
theorem bc6Field_of_hasFields (v : BitVec 128) (ch : Bc6Chan) (ep : Bc6End) :
    bc6Field v m.pieces ch ep = joined v (fs.getD (3 * ep.index + ch.index) []) ∧
      bc6Field v m.pieces ch ep < 2 ^ m.fieldWidth ch ep := by
  obtain ⟨same, fits, -⟩ := Bc6Mode.field_of_hasFields table ch ep
  have value := bc6Field_eq_joined same v
  exact ⟨value, value ▸ (joined_lt v _).trans_le (Nat.pow_le_pow_right Nat.two_pos fits)⟩

theorem bc6Endpoint_of_hasFields (most : m.precision ≤ 16) (signed : Bool) (v : BitVec 128) (ch : Bc6Chan)
    (ep : Bc6End) : bc6Endpoint m signed v ch ep = rowEndpoint signed m.precision m.deltas fs v ch.index ep.index := by
  have field (ep : Bc6End) (whole : ep = .w ∨ m.deltas = []) : extendTo signed m.precision
      (bc6Field v m.pieces ch ep) = extended signed m.precision (joined v (fs.getD (3 * ep.index + ch.index) [])) := by
    obtain ⟨-, -, positive⟩ := Bc6Mode.field_of_hasFields table ch ep
    obtain ⟨value, small⟩ := bc6Field_of_hasFields table v ch ep
    rw [Bc6Mode.fieldWidth, if_pos whole] at positive small
    rw [extendTo_of_lt signed positive small, value]
  have first : ep.index = 0 ↔ ep = .w := by cases ep <;> decide
  simp only [rowEndpoint, first]
  by_cases whole : ep = .w ∨ m.deltas = []
  · rw [if_pos whole, bc6Endpoint_of_whole signed v ch whole, field ep whole]
  · obtain ⟨-, -, positive⟩ := Bc6Mode.field_of_hasFields table ch ep
    obtain ⟨value, small⟩ := bc6Field_of_hasFields table v ch ep
    obtain ⟨-, -, precise⟩ := Bc6Mode.field_of_hasFields table ch .w
    rw [Bc6Mode.fieldWidth, if_neg whole] at positive small
    rw [Bc6Mode.fieldWidth, if_pos (.inl rfl)] at precise
    rw [if_neg whole, bc6Endpoint_of_delta signed v ch whole, field .w (.inl rfl), signExt_of_lt positive small, value,
      extendTo_sum signed precise most, show 3 * Bc6End.w.index + ch.index = ch.index from Nat.zero_add _]

end

end Sys2Proof.Machine
end

section
/-! PROOFS. The texels of a BC6H row: unquantisation, palette and half as the rules print them (R1021 to R1025), and what
bounds each of them. -/
namespace Sys2Proof.Machine

/-! ### Unquantisation (R1021) -/

/-- The magnitude of an endpoint of SF16. -/
def rowMagnitude (p a : Nat) : Nat :=
  if p = 16 then a else if a = 0 then 0 else if 2 ^ (p - 1) - 1 ≤ a then 32767
  else (a * 32768 + 16384) / 2 ^ (p - 1)

/-- An unquantised endpoint. -/
def rowUnquantized (signed : Bool) (p : Nat) (x : Int) : Int :=
  if signed then (if x < 0 then -(rowMagnitude p x.natAbs : Int) else rowMagnitude p x.natAbs)
  else if p = 16 then x else if x = 0 then 0 else if x = 2 ^ p - 1 then 65535 else (x * 65536 + 32768) / 2 ^ p

theorem unqMagnitude_eq (a p : Nat) : unqMagnitude a p = rowMagnitude p a := by
  simp only [unqMagnitude, rowMagnitude, Nat.shiftLeft_eq, Nat.shiftRight_eq_div_pow, ge_iff_le, Nat.reducePow]

theorem unqU_eq {x : Int} (positive : 0 ≤ x) (p : Nat) : (unqU x.toNat p : Int) = rowUnquantized false p x := by
  obtain ⟨n, rfl⟩ := Int.eq_ofNat_of_zero_le positive
  have top : n = 2 ^ p - 1 ↔ (n : Int) = 2 ^ p - 1 := by
    zify [Nat.one_le_two_pow (n := p)]
  simp only [unqU, rowUnquantized, Nat.shiftLeft_eq, Nat.shiftRight_eq_div_pow, Int.toNat_natCast, top,
    Int.natCast_eq_zero, Bool.false_eq_true, if_false]
  split_ifs <;> norm_num

theorem unquantize_eq {signed : Bool} {p : Nat} {e : Int} (range : EndpointRange signed p e) :
    unquantize signed e p = rowUnquantized signed p e := by
  cases signed
  case false => exact unqU_eq range.1 p
  case true =>
    show unqS e p = _
    rw [unqS, unqMagnitude_eq]
    rfl

/-- The bounds of an unquantised endpoint, and of what lies between two of them: only 16 bits reach -32768. -/
def UnquantizedRange (signed inf : Bool) (x : Int) : Prop :=
  if signed then (if inf then -32768 else -32767) ≤ x ∧ x ≤ 32767 else 0 ≤ x ∧ x ≤ 65535

theorem unqMagnitude_le {p : Nat} (fewer : p ≠ 16) (a : Nat) : unqMagnitude a p ≤ 32767 := by
  rw [unqMagnitude_eq, rowMagnitude, if_neg fewer]
  split_ifs with zero top
  · exact Nat.zero_le _
  · exact le_rfl
  · refine Nat.le_of_lt_succ (Nat.div_lt_of_lt_mul ?_)
    omega

theorem unqU_le {p : Nat} (a : Nat) (small : a < 2 ^ p) : unqU a p ≤ 65535 := by
  rw [unqU]
  split_ifs with sixteen zero top
  · subst sixteen
    omega
  · decide
  · exact le_rfl
  · rw [Nat.shiftLeft_eq, Nat.shiftRight_eq_div_pow]
    refine Nat.le_of_lt_succ (Nat.div_lt_of_lt_mul ?_)
    omega

theorem unquantize_range {signed : Bool} {p : Nat} {e : Int} (range : EndpointRange signed p e) :
    UnquantizedRange signed (p == 16) (unquantize signed e p) := by
  cases signed
  case false =>
    obtain ⟨low, high⟩ : 0 ≤ e ∧ e < 2 ^ p := range
    have small : e.toNat < 2 ^ p := by zify; omega
    have most := unqU_le e.toNat small
    show 0 ≤ (unqU e.toNat p : Int) ∧ (unqU e.toNat p : Int) ≤ 65535
    omega
  case true =>
    obtain ⟨low, high⟩ : -2 ^ (p - 1) ≤ e ∧ e < 2 ^ (p - 1) := range
    show (if p == 16 then -32768 else -32767) ≤ unqS e p ∧ unqS e p ≤ 32767
    by_cases sixteen : p = 16
    · subst sixteen
      have value : unqS e 16 = e := by
        simp only [unqS, unqMagnitude, if_true]
        split_ifs <;> omega
      rw [value]
      norm_num at low high ⊢
      omega
    · have most := unqMagnitude_le sixteen e.natAbs
      simp only [unqS, beq_iff_eq, sixteen, if_false]
      split_ifs <;> omega

/-! ### Palette and half (R1022, R1023) -/

theorem weightOf_le (b i : Nat) : weightOf b i ≤ 64 := by
  have le (l : List Nat) (all : ∀ x ∈ l, x ≤ 64) : l.getD i 0 ≤ 64 := by
    rw [List.getD_eq_getElem?_getD]
    match h : l[i]? with
    | none => exact Nat.zero_le _
    | some x => exact all x (List.mem_of_getElem? h)
  unfold weightOf
  split <;> exact le _ (by decide)

/-- R1022: a colour of the palette lies between the endpoints. -/
theorem palette_range {lo hi a b : Int} {w : Nat} (first : lo ≤ a ∧ a ≤ hi) (second : lo ≤ b ∧ b ≤ hi)
    (weight : w ≤ 64) :
    lo ≤ (a * (64 - w : Nat) + b * w + 32) / 64 ∧ (a * (64 - w : Nat) + b * w + 32) / 64 ≤ hi := by
  have low : lo * (64 - w : Nat) + lo * w ≤ a * (64 - w : Nat) + b * w := by gcongr <;> omega
  have high : a * (64 - w : Nat) + b * w ≤ hi * (64 - w : Nat) + hi * w := by gcongr <;> omega
  rw [← mul_add] at low high
  have whole : ((64 - w : Nat) : Int) + w = 64 := by omega
  rw [whole] at low high
  omega

theorem palette_unquantizedRange {signed inf : Bool} {a b : Int} {w : Nat} (first : UnquantizedRange signed inf a)
    (second : UnquantizedRange signed inf b) (weight : w ≤ 64) :
    UnquantizedRange signed inf ((a * (64 - w : Nat) + b * w + 32) / 64) := by
  cases signed
  case false => exact palette_range first second weight
  case true => exact palette_range first second weight

/-- R1023: the bits of a half. -/
def rowHalf (signed : Bool) (x : Int) : Nat :=
  if signed then (if x < 0 then 32768 else 0) + x.natAbs * 31 / 32 else x.toNat * 31 / 64

/-- U26: the sign is the bit above the magnitude. -/
theorem bc6Finish_eq {signed inf : Bool} {x : Int} (range : UnquantizedRange signed inf x) :
    bc6Finish signed x = BitVec.ofNat 16 (rowHalf signed x) := by
  cases signed
  case false => simp [bc6Finish, rowHalf, Nat.shiftRight_eq_div_pow]
  case true =>
    have small : x.natAbs * 31 / 32 < 2 ^ 15 := by
      obtain ⟨low, high⟩ : (if inf then -32768 else -32767) ≤ x ∧ x ≤ 32767 := range
      cases inf <;> simp at low <;> omega
    have sign : 32768 ||| x.natAbs * 31 / 32 = 32768 + x.natAbs * 31 / 32 := (Nat.two_pow_add_eq_or_of_lt small 1).symm
    by_cases negative : x < 0 <;> simp [bc6Finish, rowHalf, Nat.shiftRight_eq_div_pow, negative, sign]

/-- The halves that a format can answer; `inf`: also -INF. -/
def FiniteHalf (signed inf : Bool) (h : BitVec 16) : Prop :=
  if signed then h.toNat % 2 ^ 15 ≤ 0x7BFF ∨ (inf = true ∧ h = 0xFC00) else h.toNat ≤ 0x7BFF

theorem bc6Finish_finite {signed inf : Bool} {x : Int} (range : UnquantizedRange signed inf x) :
    FiniteHalf signed inf (bc6Finish signed x) := by
  rw [bc6Finish_eq range]
  cases signed
  case false =>
    obtain ⟨low, high⟩ : 0 ≤ x ∧ x ≤ 65535 := range
    show (BitVec.ofNat 16 (x.toNat * 31 / 64)).toNat ≤ 0x7BFF
    have small : x.toNat * 31 / 64 ≤ 0x7BFF := by omega
    rw [BitVec.toNat_ofNat]
    exact (Nat.mod_le _ _).trans small
  case true =>
    obtain ⟨low, high⟩ : (if inf then -32768 else -32767) ≤ x ∧ x ≤ 32767 := range
    show (BitVec.ofNat 16 ((if x < 0 then 32768 else 0) + x.natAbs * 31 / 32)).toNat % 2 ^ 15 ≤ 0x7BFF ∨ _
    by_cases least : x = -32768
    · subst least
      cases inf
      case false => simp at low
      case true => exact .inr ⟨rfl, rfl⟩
    · have magnitude : x.natAbs ≤ 32767 := by cases inf <;> simp at low <;> omega
      have small : x.natAbs * 31 / 32 ≤ 0x7BFF := by omega
      left
      rw [BitVec.toNat_ofNat]
      generalize x.natAbs * 31 / 32 = y at small
      split_ifs <;> omega

theorem FiniteHalf.orInf {signed inf : Bool} {h : BitVec 16} (finite : FiniteHalf signed inf h) :
    FiniteHalf signed true h := by
  cases signed
  case false => exact finite
  case true => exact Or.imp_right (And.imp_left fun _ => rfl) finite

/-! ### Texels (R1018, R1024, R1025) -/

section
variable {m : Bc6Mode} (precise : 0 < m.precision) (signed : Bool) (v : BitVec 128)
include precise

theorem bc6Endpoint_range (ch : Bc6Chan) (ep : Bc6End) :
    EndpointRange signed m.precision (bc6Endpoint m signed v ch ep) := by
  by_cases whole : ep = .w ∨ m.deltas = []
  · exact bc6Endpoint_of_whole signed v ch whole ▸ extendTo_range signed precise _
  · exact bc6Endpoint_of_delta signed v ch whole ▸ extendTo_range signed precise _

/-- What `fin` of R1023 is asked to turn into a half. -/
theorem bc6Palette_range (ch : Bc6Chan) (a b : Bc6End) (c i : Nat) :
    UnquantizedRange signed (m.precision == 16)
      ((unquantize signed (bc6Endpoint m signed v ch a) m.precision * (64 - weightOf c i : Nat) +
        unquantize signed (bc6Endpoint m signed v ch b) m.precision * weightOf c i + 32) / 64) :=
  palette_unquantizedRange (unquantize_range (bc6Endpoint_range precise signed v ch a))
    (unquantize_range (bc6Endpoint_range precise signed v ch b)) (weightOf_le c i)

theorem bc6Texel_finite (n : Pos) : ∃ r g b, FiniteHalf signed (m.precision == 16) r ∧
    FiniteHalf signed (m.precision == 16) g ∧ FiniteHalf signed (m.precision == 16) b ∧
      bc6Texel m v n signed = ⟨.half r, .half g, .half b, .unorm 1 1⟩ :=
  ⟨_, _, _, bc6Finish_finite (bc6Palette_range precise signed v ..),
    bc6Finish_finite (bc6Palette_range precise signed v ..), bc6Finish_finite (bc6Palette_range precise signed v ..),
    rfl⟩

end

theorem bc6ModeOf_precision {v : BitVec 128} {m : Bc6Mode} (h : bc6ModeOf v = some m) : 0 < m.precision := by
  unfold bc6ModeOf at h
  split at h
  iterate 2 cases h; decide
  split at h <;> cases h <;> decide

/-- R1018, R1052: one bit less at a fix-up texel. -/
theorem packedIndex_eq (v : BitVec 128) (start : Nat) {b : Nat} (atLeast : 2 ≤ b) (fix : List Nat) (t : Nat) :
    packedIndex v start b fix t =
      let pos := start + b * t - (fix.filter fun x => decide (x < t)).length
      if fix.contains t then bits v (pos + b - 2) pos else bits v (pos + b - 1) pos := by
  simp only [packedIndex]
  split
  · congr 1; omega
  · rfl

/-- R1018, R1022: the weight of texel `t`, in a mode of two lines or of one. -/
def rowWeight (v : BitVec 128) (two : Bool) (q : Partition) (t : Nat) : Nat :=
  let pos := 82 + 3 * t - ((if 0 < t then 1 else 0) + if q.fix1 < t then 1 else 0)
  if two then [0, 9, 18, 27, 37, 46, 55, 64].getD
    (if t = 0 ∨ t = q.fix1 then bits v (pos + 1) pos else bits v (pos + 2) pos) 0
  else [0, 4, 9, 13, 17, 21, 26, 30, 34, 38, 43, 47, 51, 55, 60, 64].getD
    (if t = 0 then bits v 67 65 else bits v (4 * t + 67) (4 * t + 64)) 0

theorem weightOf_packedIndex_two (v : BitVec 128) (p : Partition) (t : Nat) :
    weightOf 3 (packedIndex v 82 3 (fixups 2 p) t) = rowWeight v true p t := by
  have before : ((fixups 2 p).filter fun x => decide (x < t)).length =
      (if 0 < t then 1 else 0) + if p.fix1 < t then 1 else 0 := by
    simp only [fixups, List.filter_cons, List.filter_nil, decide_eq_true_eq]
    split_ifs <;> rfl
  have fixed : (fixups 2 p).contains t = true ↔ t = 0 ∨ t = p.fix1 := by simp [fixups]
  rw [packedIndex_eq v 82 (by decide), before]
  simp only [fixed]
  rfl

theorem weightOf_packedIndex_one (v : BitVec 128) (p : Partition) (t : Nat) :
    weightOf 4 (packedIndex v 65 4 (fixups 1 p) t) = rowWeight v false p t := by
  rw [packedIndex_eq v 65 (by decide)]
  match t with
  | 0 => rfl
  | t + 1 =>
    have pos : 65 + 4 * (t + 1) - 1 = 4 * (t + 1) + 64 := by omega
    simp [fixups, pos]
    rfl

/-- A texel of a row, from the row's table alone. -/
def rowTexel (two signed : Bool) (p : Nat) (ds : List Nat) (fs : List (List (Nat × Nat))) (v : BitVec 128) (n : Pos) :
    Texel :=
  let t := texelNumber n
  let q := if two then partitionsTwo.getD (bits v 81 77) partitionOne else partitionOne
  let w := rowWeight v two q t
  let ch (c : Nat) : Chan :=
    let a := if q.line t = 0 then 0 else 2
    let pal : Int := (rowUnquantized signed p (rowEndpoint signed p ds fs v c a) * (64 - w : Nat) +
      rowUnquantized signed p (rowEndpoint signed p ds fs v c (a + 1)) * w + 32) / 64
    .half (BitVec.ofNat 16 (rowHalf signed pal))
  ⟨ch 0, ch 1, ch 2, .unorm 1 1⟩

section
variable {m : Bc6Mode} (precise : 0 < m.precision) (most : m.precision ≤ 16) {fs : List (List (Nat × Nat))}
  (table : m.hasFields fs = true) (signed : Bool) (v : BitVec 128)
include precise most table

theorem bc6Chan_eq (ch : Bc6Chan) (a b : Bc6End) (i : Nat) : bc6Chan m signed v ch a b i =
    let w := weightOf (if m.two then 3 else 4) i
    let e := rowEndpoint signed m.precision m.deltas fs v ch.index
    .half (BitVec.ofNat 16 (rowHalf signed ((rowUnquantized signed m.precision (e a.index) * (64 - w : Nat) +
      rowUnquantized signed m.precision (e b.index) * w + 32) / 64))) := by
  have unquantized (ep : Bc6End) : unquantize signed (bc6Endpoint m signed v ch ep) m.precision =
      rowUnquantized signed m.precision (rowEndpoint signed m.precision m.deltas fs v ch.index ep.index) := by
    rw [unquantize_eq (bc6Endpoint_range precise signed v ch ep), bc6Endpoint_of_hasFields table most]
  rw [bc6Chan, bc6Finish_eq (bc6Palette_range precise signed v ch a b _ i)]
  simp only [unquantized]

theorem bc6Texel_eq (n : Pos) :
    bc6Texel m v n signed = rowTexel m.two signed m.precision m.deltas fs v n := by
  have weight (q : Partition) : weightOf (if m.two then 3 else 4) (if m.two then
      packedIndex v 82 3 (fixups 2 q) (texelNumber n) else packedIndex v 65 4 (fixups 1 q) (texelNumber n)) =
        rowWeight v m.two q (texelNumber n) := by
    cases m.two
    case false => exact weightOf_packedIndex_one v q _
    case true => exact weightOf_packedIndex_two v q _
  simp only [bc6Texel, rowTexel, bc6Chan_eq precise most table, weight]
  generalize (if m.two then partitionsTwo.getD (bits v 81 77) partitionOne else partitionOne) = q
  by_cases first : q.line (texelNumber n) = 0
  · simp only [first, if_true]
    rfl
  · simp only [first, if_false]
    rfl

end

/-- Settles O44: a half is bounded by what the palette lies between; each row is its table of fields, and the steps
from the fields to the half are those of the rules. -/
theorem bc6hRowsAnswerFiniteHalves : Obligations.Bc6hRowsAnswerFiniteHalves := by
  intro s v n sg P
  have finite {i : Instr} {m : Bc6Mode} (run : exec i s = answer s (.texel (bc6Texel m v n sg)))
      (precise : 0 < m.precision) : ∃ r g b, P (m.precision == 16) r ∧ P (m.precision == 16) g ∧
        P (m.precision == 16) b ∧ Answers i s (.texel ⟨.half r, .half g, .half b, .unorm 1 1⟩) := by
    obtain ⟨r, g, b, hr, hg, hb, texel⟩ := bc6Texel_finite precise sg v n
    exact ⟨r, g, b, hr, hg, hb, answers_of_answer run (congrArg Result.texel texel)⟩
  refine ⟨finite (m := bc6Mode0) rfl (by decide), finite (m := bc6Mode1) rfl (by decide),
    finite (m := bc6Mode2) rfl (by decide), finite (m := bc6Mode3) rfl (by decide),
    finite (m := bc6Mode4) rfl (by decide), finite (m := bc6Mode5) rfl (by decide),
    finite (m := bc6Mode6) rfl (by decide), finite (m := bc6Mode7) rfl (by decide),
    finite (m := bc6Mode8) rfl (by decide), finite (m := bc6Mode9) rfl (by decide),
    finite (m := bc6Mode10) rfl (by decide), finite (m := bc6Mode11) rfl (by decide),
    finite (m := bc6Mode12) rfl (by decide), finite (m := bc6Mode13) rfl (by decide), ?decoded, ?rows⟩
  case decoded =>
    match mode : bc6ModeOf v with
    | some m =>
      obtain ⟨r, g, b, hr, hg, hb, answer⟩ := finite (exec_bc6h_of_mode n sg s mode) (bc6ModeOf_precision mode)
      exact ⟨r, g, b, FiniteHalf.orInf hr, FiniteHalf.orInf hg, FiniteHalf.orInf hb, answer⟩
    | none =>
      have zero : P true 0 := by cases sg <;> simp [P]
      exact ⟨0, 0, 0, zero, zero, zero, exec_bc6h_of_undefined n sg s mode⟩
  case rows =>
    intro t F sx ext R
    have row {i : Instr} {m : Bc6Mode} {fs : List (List (Nat × Nat))}
        (run : exec i s = answer s (.texel (bc6Texel m v n sg))) (precise : 0 < m.precision ∧ m.precision ≤ 16)
        (table : m.hasFields fs = true) : R i m.two m.precision m.deltas fs :=
      answers_of_answer run (congrArg Result.texel (bc6Texel_eq precise.1 precise.2 table sg v n))
    exact ⟨row (m := bc6Mode0) rfl (by decide) (by decide), row (m := bc6Mode1) rfl (by decide) (by decide),
      row (m := bc6Mode2) rfl (by decide) (by decide), row (m := bc6Mode3) rfl (by decide) (by decide),
      row (m := bc6Mode4) rfl (by decide) (by decide), row (m := bc6Mode5) rfl (by decide) (by decide),
      row (m := bc6Mode6) rfl (by decide) (by decide), row (m := bc6Mode7) rfl (by decide) (by decide),
      row (m := bc6Mode8) rfl (by decide) (by decide), row (m := bc6Mode9) rfl (by decide) (by decide),
      row (m := bc6Mode10) rfl (by decide) (by decide), row (m := bc6Mode11) rfl (by decide) (by decide),
      row (m := bc6Mode12) rfl (by decide) (by decide), row (m := bc6Mode13) rfl (by decide) (by decide)⟩

end Sys2Proof.Machine
end

section
/-! PROOFS. The BC7 rows: endpoints, weights and the rotation as the rules print them (R1043 to R1060), and channels of
eight bits. -/
namespace Sys2Proof.Machine

/-! ### Endpoints (R1053) -/

theorem bitsAt_eq (v : BitVec 128) (lo : Nat) {k : Nat} (positive : 0 < k) :
    bitsAt v lo k = bits v (lo + k - 1) lo := by
  rw [bitsAt, bits, show lo + k - 1 + 1 - lo = k by omega]

theorem bitsAt_zero (v : BitVec 128) (lo : Nat) : bitsAt v lo 0 = 0 := Nat.mod_one _

/-- Replication of `k` bits to eight. -/
def replicated (k e : Nat) : Nat := e * 2 ^ (8 - k) + e / 2 ^ (2 * k - 8)

section
variable {k e : Nat} (least : 4 ≤ k) (most : k ≤ 8) (small : e < 2 ^ k)
include least most small

theorem replicated_lt : replicated k e < 256 := by
  rw [replicated]
  interval_cases k <;> omega

theorem bc7Replicate_eq : bc7Replicate e k = replicated k e := by
  rw [bc7Replicate, replicated]
  split
  next eight => subst eight; omega
  next fewer =>
    have below : e >>> (2 * k - 8) < 2 ^ (8 - k) := by
      rw [Nat.shiftRight_eq_div_pow]
      refine Nat.div_lt_of_lt_mul ?_
      rwa [← Nat.pow_add, show 2 * k - 8 + (8 - k) = k by omega]
    rw [← Nat.shiftLeft_add_eq_or_of_lt below, Nat.shiftLeft_eq, Nat.shiftRight_eq_div_pow]

end

/-- Where the P-bit of an endpoint lies, in a mode that has them. -/
def pbitPosition : Bc7PBits → Option (Nat → Nat)
  | .none => none
  | .shared lo => some fun j => lo + j / 2
  | .each lo => some fun j => lo + j

/-- Endpoint `j` of a field of `k` bits from bit `lo`. -/
def rowEndpoint8 (v : BitVec 128) (lo k : Nat) (pbit : Option (Nat → Nat)) (j : Nat) : Nat :=
  match pbit with
  | none => replicated k (bits v (lo + k * j + k - 1) (lo + k * j))
  | some f => replicated (k + 1) (2 * bits v (lo + k * j + k - 1) (lo + k * j) + bits v (f j) (f j))

/-- A field that replication extends to eight bits, with its P-bit where there is one. -/
def fitsEight (p : Bc7PBits) (f : Bc7Field) : Bool :=
  match pbitPosition p with
  | none => decide (4 ≤ f.width ∧ f.width ≤ 8)
  | some _ => decide (4 ≤ f.width ∧ f.width ≤ 7)

theorem bc7PBit_eq (v : BitVec 128) (p : Bc7PBits) (j : Nat) :
    bc7PBit v p j = (pbitPosition p).map fun f => bits v (f j) (f j) := by
  cases p <;> simp [bc7PBit, pbitPosition, bitsAt_eq]

section
variable {p : Bc7PBits} {f : Bc7Field} (fits : fitsEight p f = true) (v : BitVec 128)
include fits

theorem bc7Endpoint_eq_and_lt (j : Nat) :
    bc7Endpoint v p f j = rowEndpoint8 v f.lo f.width (pbitPosition p) j ∧ bc7Endpoint v p f j < 256 := by
  rw [fitsEight] at fits
  simp only [bc7Endpoint, bc7PBit_eq]
  cases position : pbitPosition p with
  | none =>
    rw [position] at fits
    obtain ⟨least, most⟩ := of_decide_eq_true fits
    have value := bitsAt_eq v (f.lo + f.width * j) (k := f.width) (by omega)
    have small : bitsAt v (f.lo + f.width * j) f.width < 2 ^ f.width := Nat.mod_lt _ (Nat.two_pow_pos _)
    have endpoint := bc7Replicate_eq least most small
    exact ⟨value ▸ endpoint, endpoint.trans_lt (replicated_lt least most small)⟩
  | some bitOf =>
    rw [position] at fits
    obtain ⟨least, most⟩ := of_decide_eq_true fits
    have value := bitsAt_eq v (f.lo + f.width * j) (k := f.width) (by omega)
    have upper : bitsAt v (f.lo + f.width * j) f.width < 2 ^ f.width := Nat.mod_lt _ (Nat.two_pow_pos _)
    have lower : bits v (bitOf j) (bitOf j) < 2 ^ 1 := bits_lt_of_width v (by omega)
    have small : 2 * bitsAt v (f.lo + f.width * j) f.width + bits v (bitOf j) (bitOf j) < 2 ^ (f.width + 1) := by
      rw [Nat.pow_succ]
      omega
    have endpoint := bc7Replicate_eq (k := f.width + 1) (by omega) (by omega) small
    exact ⟨value ▸ endpoint, endpoint.trans_lt (replicated_lt (by omega) (by omega) small)⟩

end

/-! ### Channels (R1052, R1054) -/

/-- The weight of texel `t`, of an index field of `k` bits from bit `lo`. -/
def rowWeight8 (v : BitVec 128) (t lo k : Nat) (fix : List Nat) : Nat :=
  let pos := lo + k * t - (fix.filter fun x => decide (x < t)).length
  let i := if fix.contains t then bits v (pos + k - 2) pos else bits v (pos + k - 1) pos
  (if k = 2 then [0, 21, 43, 64] else if k = 3 then [0, 9, 18, 27, 37, 46, 55, 64]
    else [0, 4, 9, 13, 17, 21, 26, 30, 34, 38, 43, 47, 51, 55, 60, 64]).getD i 0

theorem weightOf_packedIndex (v : BitVec 128) (t lo : Nat) {k : Nat} (least : 2 ≤ k) (fix : List Nat) :
    weightOf k (packedIndex v lo k fix t) = rowWeight8 v t lo k fix := by
  rw [packedIndex_eq v lo least]
  match k with
  | 2 | 3 => rfl
  | k + 4 => simp [weightOf, rowWeight8, weights4]

/-- R1054: one component between its two endpoints. -/
def rowMix (v : BitVec 128) (lo k : Nat) (pbit : Option (Nat → Nat)) (l w : Nat) : Nat :=
  (rowEndpoint8 v lo k pbit (2 * l) * (64 - w) + rowEndpoint8 v lo k pbit (2 * l + 1) * w + 32) / 64

section
variable {p : Bc7PBits} {f : Bc7Field} (fits : fitsEight p f = true) (v : BitVec 128) (l b i : Nat)
include fits

theorem bc7Chan_eq : bc7Chan v p f l b i = rowMix v f.lo f.width (pbitPosition p) l (weightOf b i) := by
  obtain ⟨first, -⟩ := bc7Endpoint_eq_and_lt fits v (2 * l)
  obtain ⟨second, -⟩ := bc7Endpoint_eq_and_lt fits v (2 * l + 1)
  rw [bc7Chan, first, second, Nat.shiftRight_eq_div_pow]
  rfl

theorem bc7Chan_lt : bc7Chan v p f l b i < 256 := by
  obtain ⟨-, first⟩ := bc7Endpoint_eq_and_lt fits v (2 * l)
  obtain ⟨-, second⟩ := bc7Endpoint_eq_and_lt fits v (2 * l + 1)
  have between := palette_range (lo := 0) (hi := 255) (a := bc7Endpoint v p f (2 * l))
    (b := bc7Endpoint v p f (2 * l + 1)) (by omega) (by omega) (weightOf_le b i)
  rw [bc7Chan, Nat.shiftRight_eq_div_pow]
  norm_cast at between
  exact Nat.lt_succ_of_le between.2

end

/-! ### Colours (R1055, R1059, R1060) -/

/-- The fields of a mode can be replicated to eight bits, and its indices have two bits or more. -/
def Bc7Mode.fits (m : Bc7Mode) : Bool :=
  fitsEight m.pbits m.red && fitsEight m.pbits m.green && fitsEight m.pbits m.blue && m.alpha.all (fitsEight m.pbits) &&
    decide (2 ≤ m.first.width) && m.second.all fun j => decide (2 ≤ j.width)

/-- Four channels of eight bits. -/
def Rgba8.Bytes (c : Rgba8) : Prop := c.r < 256 ∧ c.g < 256 ∧ c.b < 256 ∧ c.a < 256

theorem bc7Rotate_eq (k : Nat) (c : Rgba8) : bc7Rotate k c =
    if k = 1 then ⟨c.a, c.g, c.b, c.r⟩ else if k = 2 then ⟨c.r, c.a, c.b, c.g⟩
    else if k = 3 then ⟨c.r, c.g, c.a, c.b⟩ else c := by
  match k with
  | 0 | 1 | 2 | 3 | k + 4 => simp [bc7Rotate]

theorem bc7Rotate_bytes (k : Nat) {c : Rgba8} (bytes : c.Bytes) : (bc7Rotate k c).Bytes := by
  obtain ⟨r, g, b, a⟩ := bytes
  rw [bc7Rotate_eq]
  split_ifs
  · exact ⟨a, g, b, r⟩
  · exact ⟨r, a, b, g⟩
  · exact ⟨r, g, a, b⟩
  · exact ⟨r, g, b, a⟩

/-- R1055: one line. -/
theorem partitionOne_line (t : Nat) : partitionOne.line t = 0 := by
  simp [Partition.line, partitionOne, nbits]

/-- A channel of a texel of line `l` in a mode, with the index field `ix`. -/
def Bc7Mode.rowChan (m : Bc7Mode) (v : BitVec 128) (n : Pos) (l : Nat) (ix : Bc7Index) (f : Bc7Field) : Nat :=
  rowMix v f.lo f.width (pbitPosition m.pbits) l
    (rowWeight8 v (texelNumber n) ix.lo ix.width (fixups m.lines (bc7Partition m v)))

section
variable {m : Bc7Mode} (fits : m.fits = true) (v : BitVec 128) (n : Pos)
include fits

theorem Bc7Mode.fits_parts : (fitsEight m.pbits m.red = true ∧ fitsEight m.pbits m.green = true ∧
    fitsEight m.pbits m.blue = true ∧ m.alpha.all (fitsEight m.pbits) = true) ∧
    2 ≤ (bc7Indices m v).1.width ∧ 2 ≤ (bc7Indices m v).2.width := by
  simp only [Bc7Mode.fits, Bool.and_eq_true, decide_eq_true_eq] at fits
  obtain ⟨⟨⟨⟨⟨red, green⟩, blue⟩, alpha⟩, first⟩, second⟩ := fits
  refine ⟨⟨red, green, blue, alpha⟩, ?_⟩
  unfold bc7Indices
  split
  next => exact ⟨first, first⟩
  next j present =>
    have width : 2 ≤ j.width := by simpa [present] using second
    split
    next => exact ⟨first, width⟩
    next => split <;> constructor <;> assumption

theorem bc7Colour_bytes : (bc7Colour m v n).Bytes := by
  obtain ⟨⟨red, green, blue, alpha⟩, -⟩ := Bc7Mode.fits_parts fits v
  refine bc7Rotate_bytes _ ⟨bc7Chan_lt red .., bc7Chan_lt green .., bc7Chan_lt blue .., ?_⟩
  dsimp only
  split
  next => decide
  next f present => exact bc7Chan_lt (by simpa [present] using alpha) ..

theorem bc7Colour_eq : bc7Colour m v n =
    let c := m.rowChan v n ((bc7Partition m v).line (texelNumber n))
    let ix := bc7Indices m v
    bc7Rotate (bitsAt v m.rotation.lo m.rotation.width)
      ⟨c ix.1 m.red, c ix.1 m.green, c ix.1 m.blue, m.alpha.elim 255 (c ix.2)⟩ := by
  obtain ⟨⟨red, green, blue, alpha⟩, colourIndex, alphaIndex⟩ := Bc7Mode.fits_parts fits v
  simp only [bc7Colour, bc7Chan_eq red, bc7Chan_eq green, bc7Chan_eq blue, weightOf_packedIndex v _ _ colourIndex]
  cases present : m.alpha with
  | none => rfl
  | some f =>
    have alphaFits : fitsEight m.pbits f = true := by simpa [present] using alpha
    simp only [bc7Chan_eq alphaFits, weightOf_packedIndex v _ _ alphaIndex]
    rfl

/-- A mode with one index field and no rotation. -/
theorem bc7Colour_of_unrotated (oneIndex : m.second = none) (unrotated : m.rotation.width = 0) : bc7Colour m v n =
    let c := m.rowChan v n ((bc7Partition m v).line (texelNumber n)) m.first
    ⟨c m.red, c m.green, c m.blue, m.alpha.elim 255 c⟩ := by
  have indices : bc7Indices m v = (m.first, m.first) := by simp [bc7Indices, oneIndex]
  rw [bc7Colour_eq fits, indices, unrotated, bitsAt_zero]
  rfl

/-- A mode of one line. -/
theorem bc7Colour_of_one_line (oneLine : m.lines = 1) : bc7Colour m v n =
    let ix := bc7Indices m v
    bc7Rotate (bitsAt v m.rotation.lo m.rotation.width) ⟨m.rowChan v n 0 ix.1 m.red, m.rowChan v n 0 ix.1 m.green,
      m.rowChan v n 0 ix.1 m.blue, m.alpha.elim 255 (m.rowChan v n 0 ix.2)⟩ := by
  have line : (bc7Partition m v).line (texelNumber n) = 0 := by
    simp only [bc7Partition, oneLine]
    exact partitionOne_line _
  rw [bc7Colour_eq fits, line]

end

/-- R1059: the index selector of mode 4. -/
theorem bc7Indices_mode4 (v : BitVec 128) :
    bc7Indices bc7Mode4 v = if bits v 7 7 = 0 then (⟨50, 2⟩, ⟨81, 3⟩) else (⟨81, 3⟩, ⟨50, 2⟩) := by
  have selector : bit v 7 = true ↔ bits v 7 7 ≠ 0 := by simp [bit, bits]
  show (if bit v 7 then (_, _) else (_, _)) = _
  by_cases clear : bits v 7 7 = 0 <;> simp [selector, clear, bc7Mode4]

/-! ### The mode of a block -/

theorem bc7ModeOf_fits {v : BitVec 128} {m : Bc7Mode} (h : bc7ModeOf v = some m) : m.fits = true := by
  unfold bc7ModeOf at h
  split_ifs at h <;> cases h <;> decide

/-- R1042: only a block whose low eight bits are 0 has no mode. -/
theorem bits_eq_zero_of_bc7ModeOf {v : BitVec 128} (h : bc7ModeOf v = none) : bits v 7 0 = 0 := by
  refine Nat.eq_of_testBit_eq fun i => ?_
  rw [testBit_bits, Nat.zero_testBit, Nat.zero_add, ← bit_eq_testBit]
  unfold bc7ModeOf at h
  split_ifs at h
  by_cases low : i < 8
  · interval_cases i <;> simp_all
  · simp [low]

/-- Settles O46: a row's colour is the channels that its fields give, rotated; a mode without alpha is not rotated. -/
theorem bc7RowsAnswerEightBitTexels : Obligations.Bc7RowsAnswerEightBitTexels := by
  intro s v n
  have alphaRow {i : Bool → Instr} {m : Bc7Mode}
      (run : ∀ srgb, exec (i srgb) s = answer s (.texel (bc7Texel m v n srgb))) (fits : m.fits = true) :
      ∃ r g b a : Nat, r < 256 ∧ g < 256 ∧ b < 256 ∧ a < 256 ∧
        ∀ srgb, Answers (i srgb) s (.texel (rgbTexel srgb r g b (.unorm a 255))) := by
    obtain ⟨r, g, b, a⟩ := bc7Colour_bytes fits v n
    exact ⟨_, _, _, _, r, g, b, a, run⟩
  have opaqueRow {i : Bool → Instr} {m : Bc7Mode}
      (run : ∀ srgb, exec (i srgb) s = answer s (.texel (bc7Texel m v n srgb)))
      (fits : m.fits = true) (absent : m.alpha = none) (oneIndex : m.second = none) (unrotated : m.rotation.width = 0) :
      ∃ r g b : Nat, r < 256 ∧ g < 256 ∧ b < 256 ∧
        ∀ srgb, Answers (i srgb) s (.texel (rgbTexel srgb r g b (.unorm 255 255))) := by
    obtain ⟨r, g, b, -⟩ := bc7Colour_bytes fits v n
    have alpha : (bc7Colour m v n).a = 255 := by simp [bc7Colour_of_unrotated fits v n oneIndex unrotated, absent]
    refine ⟨_, _, _, r, g, b, fun srgb => answers_of_answer (run srgb) ?_⟩
    rw [bc7Texel, alpha]
    rfl
  refine ⟨opaqueRow (m := bc7Mode0) (fun _ => rfl) (by decide) rfl rfl rfl,
    opaqueRow (m := bc7Mode1) (fun _ => rfl) (by decide) rfl rfl rfl,
    opaqueRow (m := bc7Mode2) (fun _ => rfl) (by decide) rfl rfl rfl,
    opaqueRow (m := bc7Mode3) (fun _ => rfl) (by decide) rfl rfl rfl,
    alphaRow (m := bc7Mode4) (fun _ => rfl) (by decide), alphaRow (m := bc7Mode5) (fun _ => rfl) (by decide),
    alphaRow (m := bc7Mode6) (fun _ => rfl) (by decide), alphaRow (m := bc7Mode7) (fun _ => rfl) (by decide),
    ?decoded, ?undefined, ?rows⟩
  case decoded =>
    intro selects
    match mode : bc7ModeOf v with
    | some m => exact alphaRow (fun srgb => exec_bc7_of_mode n srgb s mode) (bc7ModeOf_fits mode)
    | none => exact absurd (bits_eq_zero_of_bc7ModeOf mode) selects
  case undefined =>
    intro zero srgb
    exact exec_bc7_of_undefined n srgb s (bc7ModeOf_eq_none zero)
  case rows =>
    intro srgb t weight rep mix tex turned
    have row {i : Instr} {m : Bc7Mode} {r g b a : Nat} (run : exec i s = answer s (.texel (bc7Texel m v n srgb)))
        (colour : bc7Colour m v n = ⟨r, g, b, a⟩) : tex i r g b a := by
      refine answers_of_answer run ?_
      rw [bc7Texel, colour]
      rfl
    have turn {i : Instr} {m : Bc7Mode} {k r g b a : Nat} (run : exec i s = answer s (.texel (bc7Texel m v n srgb)))
        (colour : bc7Colour m v n = bc7Rotate k ⟨r, g, b, a⟩) : turned k i r g b a := by
      rw [bc7Rotate_eq] at colour
      simp only [turned]
      split_ifs at colour ⊢
      all_goals exact row run colour
    refine ⟨row (m := bc7Mode0) rfl (bc7Colour_of_unrotated (by decide) v n rfl rfl),
      row (m := bc7Mode1) rfl (bc7Colour_of_unrotated (by decide) v n rfl rfl),
      row (m := bc7Mode2) rfl (bc7Colour_of_unrotated (by decide) v n rfl rfl),
      row (m := bc7Mode3) rfl (bc7Colour_of_unrotated (by decide) v n rfl rfl), ?mode4,
      turn (m := bc7Mode5) rfl (bc7Colour_of_one_line (by decide) v n rfl), ?mode6,
      row (m := bc7Mode7) rfl (bc7Colour_of_unrotated (by decide) v n rfl rfl)⟩
    case mode4 =>
      intro two three w x
      refine turn (m := bc7Mode4) rfl ((bc7Colour_of_one_line (by decide) v n rfl).trans ?_)
      by_cases clear : bits v 7 7 = 0
      · have colour : w = two := if_pos clear
        have alpha : x = three := if_pos clear
        rw [bc7Indices_mode4, if_pos clear, colour, alpha]
        rfl
      · have colour : w = three := if_neg clear
        have alpha : x = two := if_neg clear
        rw [bc7Indices_mode4, if_neg clear, colour, alpha]
        rfl
    case mode6 =>
      refine row (m := bc7Mode6) rfl ((bc7Colour_of_one_line (by decide) v n rfl).trans ?_)
      rw [show bitsAt v bc7Mode6.rotation.lo bc7Mode6.rotation.width = 0 from bitsAt_zero v 0]
      rfl

end Sys2Proof.Machine
end

section
/-! PROOFS. Buffers and 1D surfaces: the address of an element, and when there is none. -/
namespace Sys2Proof.Machine

/-! ### Buffers -/

/-- Settles O48: the branches of the three operations; the offsets are those of `execBufTyped`, `execBufRaw` and
`execBufStructured`. -/
theorem bufferAddresses : Obligations.BufferAddresses := by
  intro s base u64 pitch v u
  have typed (h : pitch.toNat ≤ 2048) : exec (.bufTyped base pitch v u) s =
      answerOffset s base.toNat (v.toNat * pitch.toNat + u.toNat) := if_pos h
  have aligned (h : v.toNat % 4 = 0) : exec (.bufStructured base pitch u v) s =
      if v.toNat < pitch.toNat then answerOffset s base.toNat (u.toNat * pitch.toNat + v.toNat) else freeAddress s :=
    if_neg (not_not.2 h)
  have structured (h : v.toNat % 4 = 0) (inside : v.toNat < pitch.toNat) : exec (.bufStructured base pitch u v) s =
      answerOffset s base.toNat (u.toNat * pitch.toNat + v.toNat) := (aligned h).trans (if_pos inside)
  refine ⟨fun h lt => (typed h).trans (answerOffset_of_lt lt), fun h le => (typed h).trans (answerOffset_of_le le),
    fun h => ⟨_, (if_neg (Nat.not_le.2 h)).trans (freeAddress_eq s)⟩, fun lt => answerOffset_of_lt lt,
    fun le => answerOffset_of_le le, fun h inside lt => (structured h inside).trans (answerOffset_of_lt lt),
    fun h inside le => (structured h inside).trans (answerOffset_of_le le),
    fun h outside => ⟨_, ((aligned h).trans (if_neg (Nat.not_lt.2 outside))).trans (freeAddress_eq s)⟩,
    fun h => if_pos h⟩

/-! ### 1D surfaces -/

theorem lodExtent_eq (n l : Nat) : lodExtent n l = max 1 (n / 2 ^ l) := by
  rw [lodExtent, Nat.shiftRight_eq_div_pow]

/-- The offset of LOD `l` outside a tail, as R1211 derives it: the aligned widths of the LODs before it. -/
theorem lodOffset1D_eq (i width l : Nat) : lodOffset1D i width l =
    ((List.range l).map (fun k => i * ((max 1 (width / 2 ^ k) + i - 1) / i))).sum := by
  simp only [lodOffset1D, alignTo, ceilDiv, lodExtent_eq]

/-- The LOD offset in one formula: the LODs before this one, or before the tail, and the entry of the tail's table. -/
theorem lodU1D_eq (a : Surf1D) {tail : Prop} [Decidable tail]
    (h : tail ↔ a.tr ≠ .none ∧ a.tail.toNat ≤ a.lod.toNat) :
    lodU1D a =
      lodOffset1D (align1D a.tr a.bpe) a.width.toNat (if tail then a.tail.toNat else a.lod.toNat) +
      if tail then tailOffset1D a.tr a.bpe (a.lod.toNat - a.tail.toNat) else 0 := by
  unfold lodU1D
  by_cases inTail : tail
  · obtain ⟨tiled, le⟩ := h.1 inTail
    rw [if_neg (by simp [tiled, le]), if_pos inTail, if_pos inTail]
  · have before : a.tr = .none ∨ a.lod.toNat < a.tail.toNat := by
      by_contra none
      rw [not_or, Nat.not_lt] at none
      exact inTail (h.2 none)
    rw [if_pos before, if_neg inTail, if_neg inTail, Nat.add_zero]

/-- The bytes of an element (R1206). -/
theorem two_pow_bpeLog (b : Bpe) : 2 ^ bpeLog b = match b with
    | .b8 => 1 | .b16 => 2 | .b32 => 4 | .b64 => 8 | .b128 => 16 := by
  cases b <;> rfl

theorem align1D_eq (tr : TrMode) (b : Bpe) : align1D tr b = match tr with
    | .none => 64 | .yf => 4096 / 2 ^ bpeLog b | .ys => 65536 / 2 ^ bpeLog b := by
  cases tr <;> simp [align1D, Nat.shiftRight_eq_div_pow]

theorem three_le_bpeLog_iff (b : Bpe) : 3 ≤ bpeLog b ↔ 8 ≤ 2 ^ bpeLog b :=
  (Nat.pow_le_pow_iff_right (a := 2) (n := 3) (by decide)).symm

theorem baseAligned1D_iff (a : Surf1D) : baseAligned1D a = true ↔
    a.base.toNat % (match a.tr with | .none => 1 | .yf => 4096 | .ys => 65536) = 0 ∨
      (a.inTail = true ∧ 8 ≤ 2 ^ bpeLog a.bpe) := by
  rw [← three_le_bpeLog_iff, baseAligned1D]
  by_cases one : a.inTail = true ∧ 3 ≤ bpeLog a.bpe
  · simp [one]
  · rw [if_neg (by simpa using one), or_iff_left one]
    cases a.tr <;> simp [Nat.mod_one]

theorem stated1D_iff (a : Surf1D) : stated1D a = true ↔
    a.lod.toNat ≤ a.mips.toNat ∧ (a.tr = .yf → a.lod.toNat ≤ a.tail.toNat + 11) := by
  rw [stated1D, Bool.and_eq_true, decide_eq_true_iff]
  cases a.tr <;> simp [Nat.add_comm]

theorem execSurf1D_of_aligned {a : Surf1D} (h : baseAligned1D a = true) (s : State) : execSurf1D a s =
    if stated1D a then answerOffset s a.base.toNat (surf1DOffset a) else freeAddress s := if_neg (by simp [h])

/-- Settles O49: the branches of the operation, and its offset in the form of R1211 and R1214. -/
theorem oneDimensionalSurfaceAddress : Obligations.OneDimensionalSurfaceAddress := by
  intro s a bpp i g tail l mt off ok stated
  have bytes : 2 ^ bpeLog a.bpe = bpp := two_pow_bpeLog a.bpe
  have unit : align1D a.tr a.bpe = i := by
    have unit := align1D_eq a.tr a.bpe
    rw [bytes] at unit
    exact unit
  have offset : surf1DOffset a = off := by
    rw [surf1DOffset, Nat.shiftLeft_eq, bytes, lodU1D_eq a (tail := tail) Iff.rfl, unit, lodOffset1D_eq,
      ← Nat.add_assoc]
  have aligned : ok ↔ baseAligned1D a = true := by
    have aligned := baseAligned1D_iff a
    rw [bytes] at aligned
    exact aligned.symm
  have answered (hok : ok) (hst : stated) : exec (.surf1D a) s = answerOffset s a.base.toNat off := by
    rw [← offset]
    exact (execSurf1D_of_aligned (aligned.1 hok) s).trans (if_pos ((stated1D_iff a).2 hst))
  refine ⟨fun hok hst lt => (answered hok hst).trans (answerOffset_of_lt lt),
    fun hok hst le => (answered hok hst).trans (answerOffset_of_le le), fun hok hst => ?free, fun hok => if_pos ?bad⟩
  case free =>
    have unstated : ¬ stated1D a = true := fun h => hst ((stated1D_iff a).1 h)
    exact ⟨_, ((execSurf1D_of_aligned (aligned.1 hok) s).trans (if_neg unstated)).trans (freeAddress_eq s)⟩
  case bad =>
    have misaligned : ¬ baseAligned1D a = true := fun h => hok (aligned.2 h)
    simpa using misaligned

end Sys2Proof.Machine
end

section
/-! PROOFS. Tiled surfaces: SURF.2D and SURF.3D by the tile's number and the position inside the tile. -/
namespace Sys2Proof.Machine

/-! ### The number of the tile, and the place in it -/

theorem shapedOffset_eq (t : TileShape) (pitch u v ss : Nat) : shapedOffset t pitch u v ss =
    (v / 2 ^ t.cv * (pitch / 2 ^ t.cu) + u / 2 ^ t.cu) * 2 ^ t.bits.length +
      swizzle t.bits (u % 2 ^ t.cu) (v % 2 ^ t.cv) ss := by
  simp only [shapedOffset, Nat.shiftLeft_eq, Nat.shiftRight_eq_div_pow]

/-- The tile mode of a legacy walk. -/
def modeOfWalk : TileWalk → TileMode
  | .x => .tileX
  | .y => .tileY
  | .w => .tileW

theorem legacyShape_modeOfWalk (k : TileWalk) : (legacyShape (modeOfWalk k)).bits = walkBits k ∧
    (walkBits k).length = 12 ∧ 2 ^ (legacyShape (modeOfWalk k)).cu = tileWidth k ∧
      2 ^ (legacyShape (modeOfWalk k)).cv = tileHeight k := by
  cases k <;> decide

/-- A tiled surface without tiled resources is the region of its walk (R1232, R1233). -/
theorem shapedOffset_modeOfWalk (k : TileWalk) (pitch u v ss : Nat) :
    shapedOffset (legacyShape (modeOfWalk k)) pitch u v ss = tiledOffset k (pitch / tileWidth k) u v := by
  obtain ⟨bits, length, width, height⟩ := legacyShape_modeOfWalk k
  rw [shapedOffset_eq, bits, length, width, height, tiledOffset,
    offsetInTile_eq_swizzle (Nat.mod_lt u (tileWidth_pos k)) (Nat.mod_lt v (tileHeight_pos k)) ss]
  ring

theorem shapedOffset_linear (pitch u v ss : Nat) : shapedOffset (legacyShape .linear) pitch u v ss = v * pitch + u := by
  simp [shapedOffset, legacyShape, swizzle]

/-! ### TileX, TileY and TileW -/

theorem surf2DOffset_legacy {a : Surf2D} (h : a.tr = .none) : surf2DOffset a =
    shapedOffset (legacyShape a.tile) a.pitch.toNat (bytesUV2D a).1 (bytesUV2D a).2 a.ss.toNat := by
  simp [surf2DOffset, h, tileShape]

theorem baseAligned2D_legacy {a : Surf2D} (h : a.tr = .none) (aligned : a.base.toNat % 4096 = 0) :
    baseAligned2D a = true := by
  simp [baseAligned2D, h, aligned]

/-- A surface of a walk's tiles answers the address of the walk's operation. -/
theorem surf2D_answers_tile (s : State) {a : Surf2D} {k : TileWalk} {base : BitVec 64} {pitch u v : BitVec 32}
    (hbase : a.base = base) (tr : a.tr = .none) (stated : stated2D a = true)
    (uv : bytesUV2D a = (u.toNat, v.toNat)) (aligned : base.toNat % 4096 = 0) (lt : surf2DOffset a < 2 ^ 38)
    (tile : a.tile = modeOfWalk k) (hpitch : a.pitch.toNat = pitch.toNat * tileWidth k) :
    ∃ x, Answers (.surf2D a) s (.address x) ∧ execTile k base pitch u v s = .next { s with out := .address x } := by
  subst hbase
  have offset : surf2DOffset a = tiledOffset k pitch.toNat u.toNat v.toNat := by
    rw [surf2DOffset_legacy tr, tile, shapedOffset_modeOfWalk, uv, hpitch, Nat.mul_div_cancel _ (tileWidth_pos k)]
  refine ⟨_, surf2D_answers (baseAligned2D_legacy tr aligned) stated lt s, ?_⟩
  rw [execTile_of_aligned aligned, ← offset, answerOffset_of_lt lt]

/-- Settles O51: one argument for the three walks. -/
theorem tiledSurfaceIsTheTileOperation : Obligations.TiledSurfaceIsTheTileOperation :=
  fun s _ _ _ _ _ hbase tr stated uv aligned lt =>
    ⟨surf2D_answers_tile s (k := .x) hbase tr stated uv aligned lt,
      surf2D_answers_tile s (k := .y) hbase tr stated uv aligned lt,
      surf2D_answers_tile s (k := .w) hbase tr stated uv aligned lt⟩

/-! ### TileYS and TileYF -/

/-- A list without a sample's bits does not look at the sample. -/
theorem swizzle_of_no_sample {bs : List TileBit} (h : ∀ b ∈ bs, ∀ n, b ≠ .s n) (x y s : Nat) :
    swizzle bs x y s = swizzle bs x y 0 := by
  induction bs with
  | nil => rfl
  | cons b bs ih =>
    obtain ⟨head, tail⟩ := List.forall_mem_cons.1 h
    rw [swizzle_cons, swizzle_cons, ih tail]
    cases b with
    | x n => rfl
    | y n => rfl
    | s n => exact absurd rfl (head n)

theorem surf2DOffset_single {a : Surf2D} (h : a.samples = .s1) : surf2DOffset a =
    shapedOffset (tileShape a) a.pitch.toNat (bytesUV2D a).1 (bytesUV2D a).2 a.ss.toNat := by
  simp [surf2DOffset, sliced, h]

/-- A tile of at most 16 bits that the operation `i` swizzles: the surface answers the tile's number and what the
operation answers for the position inside the tile. -/
theorem surf2D_answers_swizzle {s : State} {a : Surf2D} {u v : Nat} (uv : (u, v) = bytesUV2D a)
    (single : a.samples = .s1) (aligned : baseAligned2D a = true) (stated : stated2D a = true)
    (lt : surf2DOffset a < 2 ^ 38)
    (i : BitVec 16 → BitVec 16 → Instr) (t : TileShape)
    (run : ∀ x y, exec (i x y) s = answer s (.offset (BitVec.ofNat 16 (swizzle t.bits x.toNat y.toNat 0))))
    (small : t.cu ≤ 16 ∧ t.cv ≤ 16 ∧ t.bits.length ≤ 16 ∧ t.bits.all (fun b => b matches .x _ | .y _))
    (shape : tileShape a = t) :
    ∃ o : BitVec 16, Answers (i (BitVec.ofNat 16 (u % 2 ^ t.cu)) (BitVec.ofNat 16 (v % 2 ^ t.cv))) s (.offset o) ∧
      Answers (.surf2D a) s (.address (a.base.toNat +
        ((v / 2 ^ t.cv * (a.pitch.toNat / 2 ^ t.cu) + u / 2 ^ t.cu) * 2 ^ t.bits.length + o.toNat))) := by
  obtain ⟨hcu, hcv, length, positions⟩ := small
  have fits {n k : Nat} (h : k ≤ 16) : (BitVec.ofNat 16 (n % 2 ^ k)).toNat = n % 2 ^ k := by
    rw [BitVec.toNat_ofNat, Nat.mod_eq_of_lt]
    exact (Nat.mod_lt n (Nat.two_pow_pos k)).trans_le (Nat.pow_le_pow_right Nat.two_pos h)
  have no_sample : ∀ b ∈ t.bits, ∀ n, b ≠ .s n := by
    rintro b hb n rfl
    exact absurd (List.all_eq_true.1 positions _ hb) (by simp)
  have place : (BitVec.ofNat 16 (swizzle t.bits (u % 2 ^ t.cu) (v % 2 ^ t.cv) 0)).toNat =
      swizzle t.bits (u % 2 ^ t.cu) (v % 2 ^ t.cv) a.ss.toNat := by
    rw [swizzle_of_no_sample no_sample _ _ a.ss.toNat, BitVec.toNat_ofNat, Nat.mod_eq_of_lt]
    exact (swizzle_lt _ _ _ _).trans_le (Nat.pow_le_pow_right Nat.two_pos length)
  refine ⟨_, (run _ _).trans (by rw [fits hcu, fits hcv, answer]), ?_⟩
  have answers := surf2D_answers aligned stated lt s
  rwa [surf2DOffset_single single, shape, shapedOffset_eq, ← uv, ← place] at answers

/-- Settles O52: each tile is the one that the operation of its element size swizzles. -/
theorem tiledResourceSurfaceUsesTheSwizzle : Obligations.TiledResourceSurfaceUsesTheSwizzle := by
  intro s a u v uv single aligned stated lt
  have ys {b : Bpe} {t : TileShape} (row : ysShape .s1 b = t) (tr : a.tr = .ys) (size : a.bpe = b) :
      tileShape a = t := by
    simp [tileShape, tr, sliced, single, size, row]
  have yf {b : Bpe} {t : TileShape} (row : yfShape b = t) (tr : a.tr = .yf) (size : a.bpe = b) : tileShape a = t := by
    simp [tileShape, tr, size, row]
  have answers (i : BitVec 16 → BitVec 16 → Instr) (t : TileShape) :=
    surf2D_answers_swizzle (s := s) uv single aligned stated lt i t
  exact ⟨fun tr size => answers .tileYs8 ⟨8, 8, ys8Bits⟩ (fun _ _ => rfl) (by decide) (ys rfl tr size),
    fun tr size => answers .tileYs16 ⟨9, 7, ys16Bits⟩ (fun _ _ => rfl) (by decide) (ys rfl tr size),
    fun tr size => answers .tileYs16 ⟨9, 7, ys16Bits⟩ (fun _ _ => rfl) (by decide) (ys rfl tr size),
    fun tr size => answers .tileYs64 ⟨10, 6, ys64Bits⟩ (fun _ _ => rfl) (by decide) (ys rfl tr size),
    fun tr size => answers .tileYs64 ⟨10, 6, ys64Bits⟩ (fun _ _ => rfl) (by decide) (ys rfl tr size),
    fun tr size => answers .tileYf8 ⟨6, 6, yf8Bits⟩ (fun _ _ => rfl) (by decide) (yf rfl tr size),
    fun tr size => answers .tileYf16 ⟨7, 5, yf16Bits⟩ (fun _ _ => rfl) (by decide) (yf rfl tr size),
    fun tr size => answers .tileYf16 ⟨7, 5, yf16Bits⟩ (fun _ _ => rfl) (by decide) (yf rfl tr size),
    fun tr size => answers .tileYf64 ⟨8, 4, yf64Bits⟩ (fun _ _ => rfl) (by decide) (yf rfl tr size),
    fun tr size => answers .tileYf64 ⟨8, 4, yf64Bits⟩ (fun _ _ => rfl) (by decide) (yf rfl tr size)⟩

/-! ### 3D surfaces -/

/-- LOD 0 outside a mip tail lies at the origin (R1271). -/
theorem lodUVR3D_zero {a : Surf2D} (first : a.lod = 0) (outside : inMipTail a = false) : lodUVR3D a = (0, 0, 0) := by
  simp [lodUVR3D, outside, first, lodOffset2D]

theorem tiled3DOffset_eq (big : Bool) (b : Bpe) (pitch qpitch u v r : Nat) :
    let c := align3DLog big b
    ∃ w, w < 2 ^ (c.1 + c.2.1 + c.2.2) ∧ tiled3DOffset big b pitch qpitch u v r =
      ((r / 2 ^ c.2.2 * (qpitch / 2 ^ c.2.1) + v / 2 ^ c.2.1) * (pitch / 2 ^ c.1) + u / 2 ^ c.1) *
        2 ^ (c.1 + c.2.1 + c.2.2) + w := by
  intro c
  refine ⟨Config.tile3DSwizzle big (bpeLog b) (u % 2 ^ c.1) (v % 2 ^ c.2.1) (r % 2 ^ c.2.2) %
    2 ^ (c.1 + c.2.1 + c.2.2), Nat.mod_lt _ (Nat.two_pow_pos _), ?_⟩
  simp only [tiled3DOffset, Nat.shiftLeft_eq, Nat.shiftRight_eq_div_pow, c]

theorem execSurf3D_of_aligned {a : Surf2D} (h : baseAligned2D a = true) (s : State) : execSurf3D a s =
    if stated3D a then answerOffset s a.base.toNat (surf3DOffset a) else freeAddress s := if_neg (by simp [h])

theorem execSurf3D_of_stated {a : Surf2D} (ha : baseAligned2D a = true) (hs : stated3D a = true) (s : State) :
    execSurf3D a s = answerOffset s a.base.toNat (surf3DOffset a) := (execSurf3D_of_aligned ha s).trans (if_pos hs)

/-- Settles O53: the branches of the operation, and the offset at the origin of LOD 0. -/
theorem threeDimensionalSurfaceAddress : Obligations.ThreeDimensionalSurfaceAddress := by
  intro s a u v
  refine ⟨fun ha => if_pos (by simp [ha]), fun ha hs => ?free,
    fun ha hs le => (execSurf3D_of_stated ha hs s).trans (answerOffset_of_le le),
    fun ha hs lt => (execSurf3D_of_stated ha hs s).trans (answerOffset_of_lt lt), fun tr first => ?legacy,
    fun tr first tail => ?tiled⟩
  case free => exact ⟨_, ((execSurf3D_of_aligned ha s).trans (if_neg (by simp [hs]))).trans (freeAddress_eq s)⟩
  case legacy =>
    have origin : lodUVR3D a = (0, 0, 0) := lodUVR3D_zero first (by simp [inMipTail, tr])
    have offset : surf3DOffset a =
        shapedOffset (legacyShape a.tile) a.pitch.toNat u (a.r.toNat * a.qpitch.toNat + v) 0 := by
      simp only [surf3DOffset, tr, origin, Nat.zero_add, Nat.add_zero, Nat.shiftLeft_eq]
      rfl
    rw [offset]
    cases a.tile with
    | linear => exact shapedOffset_linear _ _ _ _
    | tileX => exact shapedOffset_modeOfWalk .x _ _ _ _
    | tileY => exact shapedOffset_modeOfWalk .y _ _ _ _
    | tileW => exact shapedOffset_modeOfWalk .w _ _ _ _
  case tiled =>
    have origin : lodUVR3D a = (0, 0, 0) := lodUVR3D_zero first (by simp [inMipTail, first, Nat.ne_of_gt tail])
    have offset : surf3DOffset a =
        tiled3DOffset (a.tr == .ys) a.bpe a.pitch.toNat a.qpitch.toNat u v a.r.toNat := by
      simp only [surf3DOffset, origin, Nat.zero_add, Nat.add_zero, Nat.shiftLeft_eq]
      match mode : a.tr with
      | .none => exact absurd mode tr
      | .yf => rfl
      | .ys => rfl
    rw [offset]
    exact tiled3DOffset_eq _ _ _ _ _ _ _

end Sys2Proof.Machine
end

section
/-! PROOFS. MCS.DECODE, SURF.QUILT, SURF.CUBE and SURF.PAD. -/
namespace Sys2Proof.Machine

/-! ### The fields of an MCS element -/

/-- A field lies inside the bits of the element, so it is that of the whole operand (R1252, R1254). -/
theorem mcsField_operand {n : Samples} (m : Nat) {j : Nat} (h : j < sampleCount n) (multi : n ≠ .s1) :
    mcsField n (m % 2 ^ mcsElementBits n) j = m / 2 ^ (samplesLog n * j) % 2 ^ samplesLog n := by
  have inside : samplesLog n * j + samplesLog n ≤ mcsElementBits n := by
    cases n <;> simp only [sampleCount, samplesLog, mcsElementBits, ne_eq, not_true_eq_false] at * <;> omega
  rw [mcsField, Nat.shiftRight_eq_div_pow]
  refine Nat.eq_of_testBit_eq fun i => ?_
  simp only [Nat.testBit_mod_two_pow, Nat.testBit_div_two_pow]
  by_cases low : i < samplesLog n
  · have below : i + samplesLog n * j < mcsElementBits n := by omega
    simp [low, below]
  · simp [low]

section
variable {s : State} {n : Samples} {m : BitVec 64} {k : BitVec 4}

/-- The operation on operands whose answer is stated: the decoding of the operand's fields. -/
theorem exec_mcsDecode_of_some {r : McsResult} (stated : statedMcs n k = true)
    (decoded : mcsDecode n (m.toNat % 2 ^ mcsElementBits n) k.toNat = some r) :
    Answers (.mcsDecode n m k) s (.mcs r) := by
  show execMcsDecode n m k s = _
  rw [execMcsDecode, if_pos stated, decoded]
  rfl

/-- With no slice stated the answer is any slice of the surface, or any at all where there is no such sample. -/
theorem exec_mcsDecode_of_none
    (undecided : statedMcs n k = true → mcsDecode n (m.toNat % 2 ^ mcsElementBits n) k.toNat = none) :
    exec (.mcsDecode n m k) s = .next { s with
      freeCount := s.freeCount + 1
      out := .mcs (.slice ((Config.freeByte s.freeCount).toNat % if statedMcs n k then sampleCount n else 256)) } := by
  have none : (if statedMcs n k then mcsDecode n (m.toNat % 2 ^ mcsElementBits n) k.toNat else none) = none := by
    split
    · exact undecided ‹_›
    · rfl
  show execMcsDecode n m k s = _
  rw [execMcsDecode, none]
  rfl
end

/-- `MCS.DECODE` as R1258 prints it, in terms of the fields. -/
theorem mcsDecode_of_fields {n : Samples} {m k : Nat} {f : Nat → Nat}
    (field : ∀ j < sampleCount n, mcsField n m j = f j) (hk : k < sampleCount n) : mcsDecode n m k =
      if ∀ j < sampleCount n, f j = 2 ^ samplesLog n - 1 then some .clear
      else if f 0 = 0 then some (.slice (f k))
      else if f k = 2 ^ samplesLog n - 1 then some .clear
      else if f k = 0 then none
      else some (.slice (f k - 1)) := by
  have all : (∀ j < sampleCount n, mcsField n m j = 2 ^ samplesLog n - 1) ↔
      ∀ j < sampleCount n, f j = 2 ^ samplesLog n - 1 := forall₂_congr fun j hj => by rw [field j hj]
  simp only [mcsDecode, List.all_eq_true, List.mem_range, beq_iff_eq, all, field 0 (Nat.two_pow_pos _), field k hk]

/-! ### Padding -/

/-- The alignment of a height (R1287). -/
theorem surfPadding_of_padded {a : SurfPad} (h : (a.simple && a.linear) = false) : surfPadding a =
    { width := alignTo a.i.toNat a.width.toNat
      height := alignTo (if a.cls = .compressed then 2 * a.q.toNat else a.j.toNat) a.height.toNat +
        (if a.cube then 2 else 0) + (if a.cls = .odd then 1 else 0)
      extraBytes := (if a.cls = .odd then 16 else 0) + (if a.linear then 64 else 0)
      roundEnd := false } := by
  rw [surfPadding, if_neg (by simp [h])]
  cases a.cls <;> simp

theorem surfPadding_of_simple {a : SurfPad} (simple : a.simple = true) (linear : a.linear = true) : surfPadding a =
    { width := a.width.toNat, height := a.height.toNat, extraBytes := 0, roundEnd := true } := by
  rw [surfPadding, if_pos (by simp [simple, linear])]

theorem surfPad_answers {a : SurfPad} (stated : statedPad a = (true, true)) (s : State) :
    Answers (.surfPad a) s (.pad (surfPadding a)) := by
  show execSurfPad a s = _
  simp only [execSurfPad, stated]
  rfl

theorem statedPad_of_units {a : SurfPad} (hi : 0 < a.i.toNat) (hj : 0 < a.j.toNat) (hq : 0 < a.q.toNat) :
    statedPad a = (true, true) := by
  have nonempty {w : Nat} {x : BitVec w} (h : 0 < x.toNat) : (x != 0) = true := by
    refine bne_iff_ne.2 fun zero => ?_
    simp [zero] at h
  simp only [statedPad, nonempty hi, nonempty hj, nonempty hq, Bool.or_true]
  cases a.cls <;> simp

/-- Whatever the units, the operation answers the padding with some size, and moves only the counter of free values. -/
theorem surfPad_completes (a : SurfPad) (s : State) : ∃ k w h, exec (.surfPad a) s =
    .next { s with freeCount := k, out := .pad { surfPadding a with width := w, height := h } } := by
  show ∃ k w h, execSurfPad a s = _
  unfold execSurfPad
  match statedPad a with
  | (true, true) => exact ⟨_, _, _, rfl⟩
  | (true, false) | (false, true) =>
    simp only [freeQ_state, answer]
    exact ⟨_, _, _, rfl⟩
  | (false, false) =>
    simp only [freeQ_state, answer]
    exact ⟨_, _, _, rfl⟩

/-- Settles O54: the fields that MCS.DECODE looks at are those of the operand; the other operations are formulas. -/
theorem mcsQuiltCubeAndPadding : Obligations.McsQuiltCubeAndPadding := by
  intro s
  refine ⟨?mcs, fun n m k outside => ⟨_, exec_mcsDecode_of_none ?unstated⟩, fun _ _ _ _ _ => rfl,
    fun ai f => ⟨fun h => if_pos h, ?cube⟩, fun a => surfPad_completes a s, ?padded, fun a simple linear => ?simple⟩
  case mcs =>
    intro n m k w ones f multi hk
    have width : samplesLog n = w := by cases n <;> rfl
    have stated : statedMcs n k = true := by simp [statedMcs, multi, sampleCount, width, hk]
    have decoded := mcsDecode_of_fields (m := m.toNat % 2 ^ mcsElementBits n) (f := f)
      (fun j hj => (mcsField_operand _ hj multi).trans (by rw [width])) (k := k.toNat) (by rwa [sampleCount, width])
    rw [sampleCount, width] at decoded
    refine ⟨fun all => exec_mcsDecode_of_some stated (decoded.trans (if_pos all)), fun ⟨j, hj, other⟩ => ?_⟩
    rw [if_neg fun all => other (all j hj)] at decoded
    refine ⟨fun zero => exec_mcsDecode_of_some stated (decoded.trans (if_pos zero)), fun first last => ?clear,
      fun first last next => ?slice, fun first last zero => ?free⟩
    all_goals rw [if_neg first] at decoded
    case clear => exact exec_mcsDecode_of_some stated (decoded.trans (if_pos last))
    all_goals rw [if_neg last] at decoded
    case slice => exact exec_mcsDecode_of_some stated (decoded.trans (if_neg next))
    case free =>
      refine ⟨_, ?_, exec_mcsDecode_of_none fun _ => decoded.trans (if_pos zero)⟩
      rw [if_pos stated, sampleCount, width]
      exact Nat.mod_lt _ (Nat.two_pow_pos w)
  case unstated =>
    intro stated
    simp only [statedMcs, Bool.and_eq_true, bne_iff_ne, decide_eq_true_eq] at stated
    exact (outside.elim stated.1 (Nat.not_le.2 stated.2)).elim
  case cube =>
    intro past
    refine ⟨(freeQ s).1.toNat, (if_neg (Nat.not_lt.2 past)).trans ?_⟩
    rw [freeQ_state, answer]
  case padded =>
    intro a up padded hi hj hq
    have answers := surfPad_answers (statedPad_of_units hi hj hq) s
    rw [surfPadding_of_padded padded] at answers
    exact answers
  case simple =>
    rw [← surfPadding_of_simple simple linear]
    exact surfPad_answers (by simp [statedPad, simple, linear]) s

end Sys2Proof.Machine
end

section
/-! PROOFS. ASTC.DECODE and ASTC.HEADER.PARSE: which operands answer, void-extent and error blocks, and the ordinary
blocks of one partition with a 4 x 4 grid of 2-bit indices. -/
namespace Sys2Proof.Machine

/-! ### Formats -/

/-- No 2D footprint is smaller than 4 x 4 (R1083). -/
theorem four_le_astcFootprint2D {code : Nat} {d : Nat × Nat} (h : astcFootprint2D code = some d) :
    4 ≤ d.1 ∧ 4 ≤ d.2 := by
  unfold astcFootprint2D at h
  split at h <;> cases h <;> decide

theorem astcFormat_of_2D {fmt : BitVec 9} {f : AstcFormat} (h : astcFormat fmt = some f) (flat : f.is3D = false) :
    4 ≤ f.bs ∧ 4 ≤ f.bt ∧ f.br = 1 := by
  simp only [astcFormat] at h
  split_ifs at h
  · obtain ⟨d, -, rfl⟩ := Option.map_eq_some_iff.1 h
    cases flat
  · obtain ⟨d, footprint, rfl⟩ := Option.map_eq_some_iff.1 h
    obtain ⟨hs, ht⟩ := four_le_astcFootprint2D footprint
    exact ⟨hs, ht, rfl⟩

/-! ### When a texel is answered -/

section
variable {v : BitVec 128} {fmt : BitVec 9} {x y z : BitVec 4} {s : State} {f : AstcFormat}

theorem exec_astc_of_format (format : astcFormat fmt = some f) : exec (.astc v fmt x y z) s =
    if f.is3D && !s.par.astc3D then .refused .astc3DUnsupported
    else if x.toNat < f.bs ∧ y.toNat < f.bt ∧ z.toNat < f.br then
      answer s (.texel (astcTexel s.par.astcCheckVoidExtent f v x.toNat y.toNat z.toNat))
    else answer (astcFreeTexel f s).2 (.texel (astcFreeTexel f s).1) := by
  show execAstc v fmt x y z s = _
  rw [execAstc, format]

theorem exec_astc_of_supported (format : astcFormat fmt = some f) (supported : f.is3D = false ∨ s.par.astc3D = true) :
    exec (.astc v fmt x y z) s =
      if x.toNat < f.bs ∧ y.toNat < f.bt ∧ z.toNat < f.br then
        answer s (.texel (astcTexel s.par.astcCheckVoidExtent f v x.toNat y.toNat z.toNat))
      else answer (astcFreeTexel f s).2 (.texel (astcFreeTexel f s).1) :=
  (exec_astc_of_format format).trans (if_neg (by obtain h | h := supported <;> simp [h]))

/-- Inside the footprint the operation answers the texel of R1150. -/
theorem astc_answers (format : astcFormat fmt = some f) (supported : f.is3D = false ∨ s.par.astc3D = true)
    (inside : x.toNat < f.bs ∧ y.toNat < f.bt ∧ z.toNat < f.br) {t : Texel}
    (texel : astcTexel s.par.astcCheckVoidExtent f v x.toNat y.toNat z.toNat = t) :
    Answers (.astc v fmt x y z) s (.texel t) :=
  texel ▸ (exec_astc_of_supported format supported).trans (if_pos inside)

theorem astc_free (format : astcFormat fmt = some f) (supported : f.is3D = false ∨ s.par.astc3D = true)
    (outside : ¬ (x.toNat < f.bs ∧ y.toNat < f.bt ∧ z.toNat < f.br)) : ∃ t : Texel, exec (.astc v fmt x y z) s =
      .next { s with freeCount := s.freeCount + 8, out := .texel t } := by
  refine ⟨(astcFreeTexel f s).1, ((exec_astc_of_supported format supported).trans (if_neg outside)).trans ?_⟩
  have counted : (astcFreeTexel f s).2 = { s with freeCount := s.freeCount + 8 } := freeQ_state s
  rw [counted, answer]
end

/-! ### Void-extent and error blocks of a 2D format -/

/-- A field of the first bits of a block. -/
theorem nbits_bits_zero {w : Nat} (v : BitVec w) {hi a : Nat} (b : Nat) (inside : a ≤ hi) :
    nbits (bits v hi 0) a b = bits v a b := by
  have field := nbits_bits v (lo := 0) b (by omega : 0 + a ≤ hi)
  rwa [Nat.zero_add, Nat.zero_add] at field

section
variable {check : Bool} {f : AstcFormat} {v : BitVec 128} {x y z : Nat} (flat : f.is3D = false)
include flat

theorem astcTexel_of_void (mode : indexMode2D (bits v 10 0) = .voidExtent) :
    astcTexel check f v x y z = astcVoidTexel check f v := by
  simp [astcTexel, flat, mode]

theorem astcTexel_of_reserved (mode : indexMode2D (bits v 10 0) = .reserved) :
    astcTexel check f v x y z = astcError f := by
  simp [astcTexel, flat, mode]

theorem astcTexel_of_grid {g : AstcGrid} (mode : indexMode2D (bits v 10 0) = .grid g) :
    astcTexel check f v x y z = astcGridTexel f v g x y z := by
  simp [astcTexel, flat, mode]
end

/-- R1107: the nine low bits mark a void-extent block. -/
theorem indexMode2D_of_void {v : BitVec 128} (mark : bits v 8 0 = 0x1FC) :
    indexMode2D (bits v 10 0) = .voidExtent := if_pos ((nbits_bits_zero v 0 (by decide)).trans mark)

theorem indexMode2D_of_reserved {v : BitVec 128} (low : bits v 3 0 = 0) : indexMode2D (bits v 10 0) = .reserved := by
  have low' : nbits (bits v 10 0) 3 0 = 0 := (nbits_bits_zero v 0 (by decide)).trans low
  have unmarked : nbits (bits v 10 0) 8 0 ≠ 0x1FC := by
    intro mark
    have field : nbits (bits v 8 0) 3 0 = bits v 3 0 := nbits_bits_zero v 0 (by decide)
    rw [← nbits_bits_zero v (hi := 10) 0 (by decide), mark, low] at field
    exact absurd field (by decide)
  rw [indexMode2D, if_neg unmarked, if_pos low']

/-- The extents of a block whose bits from 10 to 63 are all 1s (R1107). -/
theorem voidExtents_of_ones {v : BitVec 128} (ones : bits v 63 10 = 2 ^ 54 - 1) :
    bits v 11 10 = 3 ∧ voidExtents false v = [(0x1FFF, 0x1FFF), (0x1FFF, 0x1FFF)] := by
  have field {a : Nat} (b : Nat) (inside : 10 + a ≤ 63) : bits v (10 + a) (10 + b) = nbits (2 ^ 54 - 1) a b := by
    rw [← ones, nbits_bits v b inside]
  refine ⟨field (a := 1) 0 (by decide), ?_⟩
  rw [voidExtents, if_neg (by decide), field (a := 14) 2 (by decide), field (a := 27) 15 (by decide),
    field (a := 40) 28 (by decide), field (a := 53) 41 (by decide)]
  decide

/-- A void-extent block with all extents 1s is no error (R1109). -/
theorem astcVoidTexel_of_ones {check : Bool} {f : AstcFormat} {v : BitVec 128} (flat : f.is3D = false)
    (ones : bits v 63 10 = 2 ^ 54 - 1) : astcVoidTexel check f v =
      if bit v 9 then
        (if f.hdr then { r := .half (BitVec.ofNat 16 (bits v 79 64)), g := .half (BitVec.ofNat 16 (bits v 95 80))
                         b := .half (BitVec.ofNat 16 (bits v 111 96)), a := .half (BitVec.ofNat 16 (bits v 127 112)) }
         else astcError f)
      else { r := ldrColour f (bits v 79 64), g := ldrColour f (bits v 95 80), b := ldrColour f (bits v 111 96)
             a := ldrAlpha f (bits v 127 112) } := by
  obtain ⟨marked, extents⟩ := voidExtents_of_ones ones
  have good : badExtents f.is3D v = false := by simp [badExtents, flat, extents]
  rw [astcVoidTexel, if_neg (by simp [marked]), if_neg (by simp [good])]

/-- The HDR flag in an LDR format makes every void-extent block an error (R1109, R1146). -/
theorem astcVoidTexel_of_hdrFlag {check : Bool} {f : AstcFormat} {v : BitVec 128} (flag : bit v 9 = true)
    (ldr : f.hdr = false) : astcVoidTexel check f v = astcError f := by
  simp [astcVoidTexel, flag, ldr]

theorem ofNat_sixteen_bits (v : BitVec 128) (lo : Nat) :
    BitVec.ofNat 16 (bits v (lo + 15) lo) = v.extractLsb' lo 16 := by
  have width : lo + 15 + 1 - lo = 16 := by omega
  refine BitVec.eq_of_toNat_eq ?_
  rw [BitVec.toNat_ofNat, bits, width, Nat.mod_mod, BitVec.extractLsb'_toNat]

/-! ### Ordinary blocks of one partition and one plane, with a 4 x 4 grid of 2-bit indices -/

/-- The grid of index mode 0x042 (R1098, R1099). -/
def simpleGrid : AstcGrid := { n := 4, m := 4, q := 1, dual := false, range := ⟨0, 0, 2⟩ }

/-- The configuration of a block with that grid and one partition (R1094 to R1106): eight bits for each colour value. -/
def simpleConfig (cem : Nat) : AstcConfig :=
  { grid := simpleGrid, parts := 1, cems := [cem], ccs := 4, colourStart := 17, indexBits := 32,
    colourRange := ⟨0, 0, 8⟩, values := cemValues cem }

theorem cemValues_le {cem : Nat} (h : cem < 16) : cemValues cem ≤ 8 := by
  rw [cemValues]
  omega

/-- A sequence of 8-bit values takes 8 bits a value (R1114). -/
theorem iseLength_bytes (c : Nat) : iseLength c ⟨0, 0, 8⟩ = 8 * c := by
  simp [iseLength, ceilDiv, Nat.mul_comm]

/-- With at most eight values the largest colour range, 0 to 255, fits (R1106). -/
theorem astcConfig_simple {f : AstcFormat} {v : BitVec 128} (hs : 4 ≤ f.bs) (ht : 4 ≤ f.bt) (hr : f.br = 1)
    (one : bits v 12 11 = 0) : astcConfig f v simpleGrid = some (simpleConfig (bits v 16 13)) := by
  have values := cemValues_le (bits_lt_of_width v (n := 4) rfl : bits v 16 13 < 16)
  have count : iseLength 16 ⟨0, 0, 2⟩ = 32 := by decide
  have range : pickRange colourRanges (cemValues (bits v 16 13)) 79 = ⟨0, 0, 8⟩ := by
    have fits : iseLength (cemValues (bits v 16 13)) ⟨0, 0, 8⟩ ≤ 79 := by
      rw [iseLength_bytes]
      omega
    rw [colourRanges, pickRange, if_pos fits]
  have room : ¬ 79 < ceilDiv (13 * cemValues (bits v 16 13)) 5 := by
    rw [ceilDiv]
    omega
  simp [astcConfig, simpleGrid, simpleConfig, one, count, range, room, hr, Nat.not_lt.2 hs, Nat.not_lt.2 ht,
    Nat.not_lt.2 (values.trans (by decide : 8 ≤ 18))]

/-- Eight bits are a value of 0 to 255 as they are (R1120). -/
theorem unquantizeColour_byte {m : Nat} (h : m < 256) (d : Nat) : unquantizeColour ⟨0, 0, 8⟩ ⟨d, m⟩ = m := by
  have replicated : replicateBits 8 8 m = m := by
    simp only [replicateBits, List.range, List.range.loop, List.foldl, Nat.shiftRight_eq_div_pow]
    omega
  simpa [unquantizeColour] using replicated

/-- Value `j` of such a block is the byte `j` from bit 17 up. -/
theorem partitionValues_simple (v : BitVec 128) {cem j : Nat} (h : j < cemValues cem) :
    partitionValues (simpleConfig cem) v 0 j = bits v (8 * j + 24) (8 * j + 17) := by
  have byte : (v.toNat >>> 17 % 2 ^ (8 * cemValues cem)) >>> (j * 8) % 2 ^ 8 = bits v (8 * j + 24) (8 * j + 17) := by
    refine Nat.eq_of_testBit_eq fun i => ?_
    have width : i < 8 * j + 24 + 1 - (8 * j + 17) ↔ i < 8 := by omega
    have place : 17 + (j * 8 + i) = 8 * j + 17 + i := by omega
    simp only [Nat.testBit_mod_two_pow, Nat.testBit_shiftRight, testBit_bits, width, place]
    by_cases low : i < 8
    · have inside : j * 8 + i < 8 * cemValues cem := by omega
      simp [low, inside]
    · simp [low]
  have value : iseValue ⟨0, 0, 8⟩ (v.toNat >>> 17 % 2 ^ (8 * cemValues cem)) j =
      ⟨0, bits v (8 * j + 24) (8 * j + 17)⟩ := by
    rw [← byte]
    rfl
  have stored : partitionValues (simpleConfig cem) v 0 j = colourValue (simpleConfig cem) v j := by
    simp [partitionValues]
  rw [stored, colourValue, simpleConfig]
  dsimp only
  have width : 8 * j + 24 + 1 - (8 * j + 17) = 8 := by omega
  rw [iseLength_bytes, value, unquantizeColour_byte (bits_lt_of_width v width)]

/-- Bit `i` of the index stream is bit `127 - i` of the block (R1132). -/
theorem testBit_reversedStream (v : BitVec 128) (len i : Nat) :
    (reversedStream v len).testBit i = (decide (i < len) && bit v (127 - i)) := by
  have upward (a n i : Nat) : ((List.range' a n).foldr (fun k acc => 2 * acc + b2n (bit v (127 - k))) 0).testBit i =
      (decide (i < n) && bit v (127 - (a + i))) := by
    induction n generalizing a i with
    | zero => simp
    | succ n ih =>
      have digit (b : Bool) : b2n b = b.toNat := by cases b <;> rfl
      rw [List.range'_succ, List.foldr_cons, digit, ← Nat.bit_val]
      cases i with
      | zero => simp
      | succ i => simp [Nat.testBit_bit_succ, ih, Nat.add_assoc, Nat.add_comm 1]
  rw [reversedStream, List.range_eq_range', upward, Nat.zero_add]

/-- The weights of a 2-bit index (R1133). -/
theorem unquantizeIndex_two {m : Nat} (h : m < 4) (d : Nat) :
    unquantizeIndex ⟨0, 0, 2⟩ ⟨d, m⟩ = [0, 21, 43, 64].getD m 0 := by
  have replicated : unquantizeIndex63 ⟨0, 0, 2⟩ ⟨d, m⟩ = replicateBits 2 6 m := by simp [unquantizeIndex63]
  rw [unquantizeIndex, replicated]
  interval_cases m <;> decide

/-- The index of a grid point: two bits, counted down from bit 127. -/
theorem indexValue_simple (v : BitVec 128) (cem j : Nat) : indexValue (simpleConfig cem) v 0 j =
    if j < 16 then
      [0, 21, 43, 64].getD (bits v (127 - 2 * j) (127 - 2 * j) + 2 * bits v (126 - 2 * j) (126 - 2 * j)) 0
    else 0 := by
  have stored : indexValue (simpleConfig cem) v 0 j =
      if j < 16 then unquantizeIndex ⟨0, 0, 2⟩ (iseValue ⟨0, 0, 2⟩ (reversedStream v 32) j) else 0 := rfl
  rw [stored]
  by_cases inside : j < 16
  · have digit {i : Nat} (h : i < 32) : (reversedStream v 32 >>> i) % 2 = bits v (127 - i) (127 - i) := by
      have one : 127 - i + 1 - (127 - i) = 1 := by omega
      refine Nat.eq_of_testBit_eq fun k => ?_
      have lowest := Nat.testBit_mod_two_pow (reversedStream v 32 >>> i) 1 k
      rw [Nat.pow_one] at lowest
      rw [lowest, Nat.testBit_shiftRight, testBit_reversedStream, testBit_bits, one]
      by_cases first : k = 0
      · subst first
        simp [h, bit_eq_testBit]
      · simp [first]
    have low := digit (i := 2 * j) (by omega)
    have high := digit (i := 2 * j + 1) (by omega)
    have both : (reversedStream v 32 >>> (j * 2)) % 2 ^ 2 =
        bits v (127 - 2 * j) (127 - 2 * j) + 2 * bits v (126 - 2 * j) (126 - 2 * j) := by
      have next : 127 - (2 * j + 1) = 126 - 2 * j := by omega
      rw [Nat.shiftRight_succ, next] at high
      rw [Nat.mul_comm j 2, ← low, ← high]
      omega
    have value : iseValue ⟨0, 0, 2⟩ (reversedStream v 32) j = ⟨0, (reversedStream v 32 >>> (j * 2)) % 2 ^ 2⟩ := rfl
    have bound : bits v (127 - 2 * j) (127 - 2 * j) + 2 * bits v (126 - 2 * j) (126 - 2 * j) < 4 :=
      both ▸ Nat.mod_lt _ (by decide)
    rw [if_pos inside, if_pos inside, value, both, unquantizeIndex_two bound]
  · rw [if_neg inside, if_neg inside]

/-! ### The texel of such a block -/

/-- An endpoint colour of natural numbers. -/
def Ep.ofNats (r g b a : Nat) : Ep := ⟨r, g, b, a⟩

/-- An LDR component of two endpoint values under the index `i` (R1137). -/
def ldrMix (f : AstcFormat) (i e0 e1 : Nat) : Nat :=
  interp16 (if f.srgb then e0 * 256 + 128 else e0 * 257) (if f.srgb then e1 * 256 + 128 else e1 * 257) i

theorem ldrInterp_ofNats (f : AstcFormat) (e0 e1 i : Nat) : ldrInterp f e0 e1 i = ldrMix f i e0 e1 := by
  have expand (e : Nat) : e * 256 + e = e * 257 := by omega
  simp only [ldrInterp, ldrMix, Int.toNat_natCast, expand]

/-- The texel of an LDR endpoint pair under one index (R1084, R1137). -/
theorem astcBlendTexel_ofNats (f : AstcFormat) {cem : Nat} (ldr : hdrMode cem = false)
    (r0 g0 b0 a0 r1 g1 b1 a1 i : Nat) :
    astcBlendTexel f cem ⟨.ofNats r0 g0 b0 a0, .ofNats r1 g1 b1 a1⟩ i i i i =
      if f.srgb then rgbTexel true (ldrMix f i r0 r1 / 256) (ldrMix f i g0 g1 / 256) (ldrMix f i b0 b1 / 256)
        (.unorm (ldrMix f i a0 a1 / 256) 255)
      else ⟨.half (fp16OfUnorm16 (ldrMix f i r0 r1)), .half (fp16OfUnorm16 (ldrMix f i g0 g1)),
        .half (fp16OfUnorm16 (ldrMix f i b0 b1)), .half (fp16OfUnorm16 (ldrMix f i a0 a1))⟩ := by
  simp only [astcBlendTexel, ldr, Ep.ofNats, ldrInterp_ofNats, ldrColour, ldrAlpha]
  cases f.srgb <;> rfl

/-- The direct pair of modes 8 and 12, with blue contraction when the odd values sum lower (R1121, R1122). -/
theorem directPair_ofNats (v : Nat → Nat) (a0 a1 : Nat) : directPair v a0 a1 =
    if v 0 + v 2 + v 4 ≤ v 1 + v 3 + v 5 then ⟨.ofNats (v 0) (v 2) (v 4) a0, .ofNats (v 1) (v 3) (v 5) a1⟩
    else ⟨.ofNats ((v 1 + v 5) / 2) ((v 3 + v 5) / 2) (v 5) a1,
      .ofNats ((v 0 + v 4) / 2) ((v 2 + v 4) / 2) (v 4) a0⟩ := by
  have half (x y : Nat) : ((x : Int) + y) / 2 = ((x + y) / 2 : Nat) := by omega
  simp only [directPair, blueContract, half]
  rfl

theorem directPair_congr {v w : Nat → Nat} {a0 a1 : Int} (h : ∀ n < 6, v n = w n) :
    directPair v a0 a1 = directPair w a0 a1 := by
  simp only [directPair, h 0 (by decide), h 1 (by decide), h 2 (by decide), h 3 (by decide), h 4 (by decide),
    h 5 (by decide)]

/-- The texel of a block of one partition without dual plane: its endpoints under the effective index. -/
theorem astcTexel_simple {f : AstcFormat} {v : BitVec 128} (flat : f.is3D = false) (hs : 4 ≤ f.bs) (ht : 4 ≤ f.bt)
    (hr : f.br = 1) (low : bits v 12 0 = 0x042) (ldr : hdrMode (bits v 16 13) = false) (check : Bool) (x y z : Nat) :
    let c := simpleConfig (bits v 16 13)
    let i := effectiveIndex f c v 0 x y z
    astcTexel check f v x y z =
      astcBlendTexel f (bits v 16 13) (endpointsOf (bits v 16 13) (partitionValues c v 0)) i i i i := by
  intro c i
  have mode : indexMode2D (bits v 10 0) = .grid simpleGrid := by
    rw [← nbits_bits_zero v (hi := 12) 0 (by decide), low]
    decide
  have one : bits v 12 11 = 0 := by
    rw [← nbits_bits_zero v (hi := 12) 11 (by decide), low]
    decide
  have config : astcConfig f v simpleGrid = some c := astcConfig_simple hs ht hr one
  rw [astcTexel_of_grid flat mode, astcGridTexel, config]
  simp [c, i, simpleConfig, simpleGrid, ldr]

/-- The effective index in a 4 x 4 grid: grid coordinates (R1134) and bilinear infill (R1135). -/
theorem effectiveIndex_simple {f : AstcFormat} (flat : f.is3D = false) (cem : Nat) (v : BitVec 128) (x y z : Nat)
    {dec : Nat → Nat} (points : ∀ j, indexValue (simpleConfig cem) v 0 j = dec j) :
    effectiveIndex f (simpleConfig cem) v 0 x y z =
      infill2D dec 4 (((1024 + f.bs / 2) / (f.bs - 1) * x * 3 + 32) / 64)
        (((1024 + f.bt / 2) / (f.bt - 1) * y * 3 + 32) / 64) := by
  have same : indexValue (simpleConfig cem) v 0 = dec := funext points
  simp only [effectiveIndex, flat, same, gridCoord, Nat.shiftRight_eq_div_pow]
  rfl

/-- Settles O47: which operands answer, then the blocks by their index mode: void-extent, reserved, and the 4 x 4 grid
of 2-bit indices, whose texel is the endpoints of its colour endpoint mode under the effective index. -/
theorem astcAnswersEveryListedFormat : Obligations.AstcAnswersEveryListedFormat := by
  intro s v fmt x y z
  refine ⟨?unlisted, fun f format => ⟨?unsupported, ?listed⟩, fun f format flat hx hy hz low => ?ordinary,
    fun lod k => ⟨_, rfl, ?header⟩⟩
  case unlisted =>
    intro unlisted
    show execAstc v fmt x y z s = _
    rw [execAstc, unlisted]
  case unsupported =>
    intro solid none
    exact (exec_astc_of_format format).trans (if_pos (by simp [solid, none]))
  case listed =>
    intro inside
    refine ⟨fun supported within => ⟨_, astc_answers format supported within rfl⟩,
      fun supported outside => astc_free format supported outside, ?ldrVoid, ?hdrVoid, ?error⟩
    case ldrVoid =>
      intro flat within mark ones linear flag
      refine astc_answers format (.inl flat) within ?_
      rw [astcTexel_of_void flat (indexMode2D_of_void mark), astcVoidTexel_of_ones flat ones, if_neg (by simp [flag])]
      simp [ldrColour, ldrAlpha, linear]
    case hdrVoid =>
      intro flat within mark ones hdr flag
      refine astc_answers format (.inl flat) within ?_
      rw [astcTexel_of_void flat (indexMode2D_of_void mark), astcVoidTexel_of_ones flat ones, if_pos flag, if_pos hdr,
        ← ofNat_sixteen_bits v 64, ← ofNat_sixteen_bits v 80, ← ofNat_sixteen_bits v 96, ← ofNat_sixteen_bits v 112]
    case error =>
      intro flat within wrong
      refine astc_answers format (.inl flat) within ?_
      obtain ⟨mark, flag, ldr⟩ | reserved := wrong
      · rw [astcTexel_of_void flat (indexMode2D_of_void mark), astcVoidTexel_of_hdrFlag flag ldr]
        rfl
      · rw [astcTexel_of_reserved flat (indexMode2D_of_reserved reserved)]
        rfl
  case ordinary =>
    intro k dec grid gs gt fs ft j w i ex mix out rgb
    obtain ⟨hs, ht, hr⟩ := astcFormat_of_2D format flat
    have within : x.toNat < f.bs ∧ y.toNat < f.bt ∧ z.toNat < f.br := ⟨hx, hy, by simp [hz, hr]⟩
    have index (cem : Nat) : effectiveIndex f (simpleConfig cem) v 0 x.toNat y.toNat z.toNat = i :=
      effectiveIndex_simple flat cem v _ _ _ (indexValue_simple v cem)
    have answers {r0 r1 g0 g1 b0 b1 a0 a1 : Nat} (ldr : hdrMode (bits v 16 13) = false)
        (ends : endpointsOf (bits v 16 13) (partitionValues (simpleConfig (bits v 16 13)) v 0) =
          ⟨.ofNats r0 g0 b0 a0, .ofNats r1 g1 b1 a1⟩) : out r0 r1 g0 g1 b0 b1 a0 a1 := by
      refine astc_answers format (.inl flat) within ((astcTexel_simple flat hs ht hr low ldr _ _ _ _).trans ?_)
      rw [index, ends, astcBlendTexel_ofNats f ldr]
      rfl
    have value {cem n : Nat} (h : n < cemValues cem) : partitionValues (simpleConfig cem) v 0 n = k n :=
      partitionValues_simple v h
    have direct {a0 a1 : Nat} (ldr : hdrMode (bits v 16 13) = false)
        (ends : endpointsOf (bits v 16 13) (partitionValues (simpleConfig (bits v 16 13)) v 0) = directPair k a0 a1) :
        rgb a0 a1 := by
      rw [directPair_ofNats] at ends
      exact ⟨fun plain => answers ldr (ends.trans (if_pos plain)),
        fun contracted => answers ldr (ends.trans (if_neg (Nat.not_le.2 contracted)))⟩
    refine ⟨fun luminance => ?cem0, fun luminanceAlpha => ?cem4, fun colour => ?cem8, fun colourAlpha => ?cem12⟩
    case cem0 =>
      refine answers (by rw [luminance]; rfl) ?_
      rw [luminance, endpointsOf, value (n := 0) (by decide), value (n := 1) (by decide)]
      rfl
    case cem4 =>
      refine answers (by rw [luminanceAlpha]; rfl) ?_
      rw [luminanceAlpha, endpointsOf, value (n := 0) (by decide), value (n := 1) (by decide),
        value (n := 2) (by decide), value (n := 3) (by decide)]
      rfl
    case cem8 =>
      refine direct (by rw [colour]; rfl) ?_
      rw [colour, endpointsOf]
      exact directPair_congr fun n hn => value hn
    case cem12 =>
      refine direct (by rw [colourAlpha]; rfl) ?_
      rw [colourAlpha, endpointsOf, value (n := 6) (by decide), value (n := 7) (by decide)]
      exact directPair_congr fun n hn => value (Nat.lt_trans hn (by decide))
  case header =>
    intro dims first
    subst first
    exact (if_pos dims).trans (congrArg (fun n => some (16 + 16 * n)) (Nat.zero_add _))

end Sys2Proof.Machine
end

section
/-! PROOFS. The return from a halt and from a hang. -/
namespace Sys2Proof.Machine

/-! ### A successful page response -/

/-- A shoot-down of faulted records takes those of its page and PASID, and no other fact (R734). -/
theorem mem_dropFaultedOf {p : BitVec 20} {n : Nat} {fs : List Fact} {x : Fact} :
    x ∈ dropFaultedOf p n fs ↔ x ∈ fs ∧ ∀ tlb c fe, x ≠ .faulted tlb n c fe p := by
  rw [dropFaultedOf, List.mem_filter, and_congr_right_iff]
  intro _
  cases x with
  | faulted tlb page c fe q =>
    have matched : (∀ tlb' c' fe', Fact.faulted tlb page c fe q ≠ .faulted tlb' n c' fe' p) ↔ ¬ (page = n ∧ q = p) := by
      refine ⟨?_, fun other _ _ _ same => ?_⟩
      · rintro other ⟨rfl, rfl⟩
        exact other _ _ _ rfl
      · injection same with _ page _ _ q
        exact other ⟨page, q⟩
    rw [matched, not_and_or]
    simp
  | leaf | entry | gttEntry | trEntry | trTile => simp

/-- The answered record and its faulted TLB records have gone (R1318, R734). -/
def requestServed (s : State) (p : BitVec 20) (r : PageRequest) : State :=
  shootDownFaulted (removeRequest s r.prgIndex) p r.page

theorem requestServed_eng (s : State) (p : BitVec 20) (r : PageRequest) (g : Engine) :
    (requestServed s p r).eng g = { s.eng g with facts := dropFaultedOf p r.page (s.eng g).facts } :=
  shootDownFaulted_eng _ _ _ _

theorem requestServed_run (s : State) (p : BitVec 20) (r : PageRequest) (g : Engine) :
    ((requestServed s p r).eng g).run = (s.eng g).run := by rw [requestServed_eng]

/-- A success for a halt request: the engine resumes if no later request of it is outstanding, and what waits is done
again. -/
theorem step_successfulResponse {s : State} {rest : List Input} {p : BitVec 20} {r : PageRequest}
    (h : s.inbox = .pageResponse p r.prgIndex 0 :: rest) (found : findRequest s r.prgIndex = some r)
    (halt : r.mode = .halt) (notLast : r.last = false) : step s = outcome (drain
      (if isNewestHalt s r then resumeHalted (requestServed { s with inbox := rest } p r) r.engine
        else requestServed { s with inbox := rest } p r)) := by
  rw [step_pageResponse h]
  have found' : findRequest { s with inbox := rest } r.prgIndex = some r := found
  have success : pageResponse { s with inbox := rest } p r.prgIndex 0 = responseOk { s with inbox := rest } p r := by
    simp only [pageResponse, found']
    rfl
  rw [success, responseOk, if_neg (by simp [notLast]), halt]
  rfl

theorem isNewestHalt_iff (s : State) (r : PageRequest) : isNewestHalt s r = true ↔
    ∀ q ∈ s.outstanding, q.engine = r.engine → q.mode = .halt → q.prgIndex ≤ r.prgIndex := by
  simp only [isNewestHalt, List.all_eq_true, Bool.or_eq_true, bne_iff_ne, decide_eq_true_eq, ne_eq]
  refine forall₂_congr fun q _ => ?_
  tauto

section
variable (s : State) (p : BitVec 20) (r : PageRequest) {e : Engine} {f : PageFault} (halted : (s.eng e).run = .halted f)
  (blocked : s.missBlocked = some e)
include halted blocked

/-- Resumed: the halted engine runs, and the miss pipeline that its fault blocked opens (R1316). -/
theorem resumed_eq : returnFromHalt (requestServed s p r) e =
    { (requestServed s p r).setRun e .running with missBlocked := none } := by
  have blocked' : ((requestServed s p r).setRun e .running).missBlocked = some e := blocked
  rw [returnFromHalt_halted ((requestServed_run s p r e).trans halted), unblock_eq, if_pos blocked']

theorem resumed_eng (g : Engine) : (returnFromHalt (requestServed s p r) e).eng g =
    { s.eng g with facts := dropFaultedOf p r.page (s.eng g).facts
                   run := if e = g then .running else (s.eng g).run } := by
  rw [resumed_eq s p r halted blocked]
  show ((requestServed s p r).setRun e .running).eng g = _
  rw [State.setRun, State.eng_setEng]
  by_cases same : e = g
  · subst same
    rw [if_pos rfl, if_pos rfl, requestServed_eng]
  · rw [if_neg same, if_neg same, requestServed_eng]
end

/-! ### Fault and continue -/

theorem step_faultContinue {s : State} {rest : List Input} {e : Engine} (h : s.inbox = .faultContinue e :: rest) :
    step s = outcome (faultContinue { s with inbox := rest } e) := step_input h (by simp)

/-- The first faulted request of the engine is taken out of the queue; the others stay in order. -/
theorem takeFaulted_first {ps qs : List Waiter} {w : Waiter} {e : Engine} (faulted : w.faulted = true)
    (own : w.isOf e = true) (first : ∀ x ∈ ps, x.faulted = true → x.isOf e = false) :
    takeFaulted (ps ++ w :: qs) e = (some w, ps ++ qs) := by
  induction ps with
  | nil => simp [takeFaulted, faulted, own]
  | cons x ps ih =>
    obtain ⟨head, tail⟩ := List.forall_mem_cons.1 first
    have passed : ¬ (x.faulted && x.isOf e) = true := by simpa using head
    rw [List.cons_append, takeFaulted, if_neg passed, ih tail]
    rfl

/-- The engine hung on the request that `FaultContinue` takes out: it runs, and needs a reset only for a lost table. -/
theorem faultContinue_of_held {s : State} {e : Engine} {f : PageFault} {w : Waiter} {ws : List Waiter}
    (hung : (s.eng e).run = .hung f true) (taken : takeFaulted s.waiting e = (some w, ws)) :
    faultContinue s e = drain (completeInvalid
      { s.setEng e { s.eng e with run := .running, needsReset := (s.eng e).lostTable } with waiting := ws } w.req) := by
  simp only [faultContinue, hung, taken, if_true]

theorem faultContinue_of_lost {s : State} {e : Engine} {f : PageFault} (hung : (s.eng e).run = .hung f false) :
    faultContinue s e = drain (s.setRun e .running) := by
  simp [faultContinue, hung]

theorem faultContinue_of_not_hung {s : State} {e : Engine} (h : ∀ f held, (s.eng e).run ≠ .hung f held) :
    faultContinue s e = .ok s := by
  unfold faultContinue
  split
  · exact absurd ‹_› (h _ _)
  all_goals rfl

/-- Settles O57: the branches of `responseOk` and of `faultContinue`. -/
theorem returnFromHaltAndHang : Obligations.ReturnFromHaltAndHang := by
  intro s rest e f
  have continued {ps qs : List Waiter} {q : WalkReq} {l : Option Nat} (inbox : s.inbox = .faultContinue e :: rest)
      (hung : (s.eng e).run = .hung f true) (waiting : s.waiting = ps ++ ⟨.walk q, true, l⟩ :: qs)
      (own : q.engine = some e) (first : ∀ w ∈ ps, w.faulted = true → w.isOf e = false) :
      step s = outcome (drain { s with
        inbox := rest, waiting := ps ++ qs, out := .dropped,
          engines := s.engines.set e { s.eng e with run := .running, needsReset := (s.eng e).lostTable } }) := by
    have taken : takeFaulted s.waiting e = (some ⟨.walk q, true, l⟩, ps ++ qs) := by
      rw [waiting]
      exact takeFaulted_first rfl (by simp [Waiter.isOf, Pending.isRequest, Pending.engine, own]) first
    rw [step_faultContinue inbox, faultContinue_of_held (s := { s with inbox := rest }) hung taken]
    rfl
  refine ⟨fun r p inbox found halt notLast engine halted blocked newest => ?newest,
    fun r q p inbox found halt notLast engine hq own haltq later idle => ?older,
    fun q l ps qs inbox hung waiting own first => continued inbox hung waiting own first,
    fun q l inbox hung waiting own => ?single, fun inbox lost idle => ?lost, fun inbox running => ?running⟩
  case newest =>
    have served : step s = _ := step_successfulResponse inbox found halt notLast
    rw [if_pos ((isNewestHalt_iff s r).2 (engine ▸ newest)), engine] at served
    have resumed := resumed_eq { s with inbox := rest } p r halted blocked
    have eng := resumed_eng { s with inbox := rest } p r halted blocked
    refine ⟨returnFromHalt (requestServed { s with inbox := rest } p r) e, served, ?_, ?_, fun g other => ?_,
      fun g => ?_⟩
    · rw [resumed]
      rfl
    · rw [eng, if_pos rfl]
    · rw [eng, if_neg (Ne.symm other)]
      rfl
    · rw [eng]
      exact ⟨rfl, rfl, fun tlb c fe h => (mem_dropFaultedOf.1 h).2 tlb c fe rfl,
        fun x hx kept => mem_dropFaultedOf.2 ⟨hx, kept⟩⟩
  case older =>
    have served : step s = _ := step_successfulResponse inbox found halt notLast
    have notNewest : ¬ isNewestHalt s r = true := fun h =>
      absurd ((isNewestHalt_iff s r).1 h q hq (own.trans engine.symm) haltq) (Nat.not_le.2 later)
    rw [if_neg notNewest, drain_of_nothing (s := requestServed { s with inbox := rest } p r) idle] at served
    exact ⟨_, served, rfl, fun g => requestServed_run _ p r g⟩
  case single =>
    exact (continued (ps := []) (qs := []) inbox hung waiting own (by simp)).trans
      (congrArg outcome (drain_of_nothing rfl))
  case lost =>
    rw [step_faultContinue inbox, faultContinue_of_lost (s := { s with inbox := rest }) lost,
      drain_of_nothing (s := State.setRun { s with inbox := rest } e .running) idle]
    rfl
  case running =>
    rw [step_faultContinue inbox, faultContinue_of_not_hung (s := { s with inbox := rest }) running]
    rfl

end Sys2Proof.Machine
end

section
/-! PROOFS. An engine reset: what it does to the engine, and to the parts of the machine outside it. -/
namespace Sys2Proof.Machine

theorem freeDescriptor_state (s : State) : (freeDescriptor s).2 = { s with freeCount := s.freeCount + 40 } := by
  simp only [freeDescriptor, freeQ_state]

/-- What a reset does before the engine is put at its reset values: what waits for the engine ends, its context leaves,
and the miss pipeline that its fault blocked opens (R1384). -/
theorem beforeReset_eq (s : State) (e : Engine) : beforeReset s e = { s with
    waiting := s.waiting.filter (fun w => w.req.engine != some e)
    pasidState := (beforeReset s e).pasidState
    awayContexts := (beforeReset s e).awayContexts
    missBlocked := if s.missBlocked = some e then none else s.missBlocked
    freeCount := (beforeReset s e).freeCount } := by
  rw [beforeReset, freeDescriptor_state, unblock_eq, dropContext_eq]
  rfl

/-- What a reset changes outside the engine: the queue, the pipeline, and of the render engine TR-TT and the HDC port
(R1381). -/
structure ResetParts (s t : State) (e : Engine) : Prop where
  inbox : t.inbox = s.inbox
  mem : t.mem = s.mem
  outstanding : t.outstanding = s.outstanding
  waiting : t.waiting = s.waiting.filter (fun w => w.req.engine != some e)
  missBlocked : t.missBlocked = if s.missBlocked = some e then none else s.missBlocked
  kept : e ≠ .render → t.trtt = s.trtt ∧ t.reg4DFC = s.reg4DFC ∧ t.nullTileCount = s.nullTileCount ∧
    t.hdcPorts = s.hdcPorts ∧ t.hdcQueue = s.hdcQueue
  cleared : e = .render → t.trtt = .reset ∧ t.reg4DFC = 0 ∧ t.nullTileCount = 0 ∧ t.hdcPorts = [] ∧ t.hdcQueue = []

theorem resetEngine_parts (s : State) (e : Engine) : ResetParts s (resetEngine s e) e := by
  obtain ⟨d, h⟩ := resetEngine_eq s e
  rw [h, beforeReset_eq]
  by_cases render : e = .render
  · rw [if_pos render]
    exact ⟨rfl, rfl, rfl, rfl, rfl, fun other => absurd render other, fun _ => ⟨rfl, rfl, rfl, rfl, rfl⟩⟩
  · rw [if_neg render]
    exact ⟨rfl, rfl, rfl, rfl, rfl, fun _ => ⟨rfl, rfl, rfl, rfl, rfl⟩, fun same => absurd same render⟩

theorem beginReset_parts (s : State) (e : Engine) : ResetParts s (beginReset s e) e :=
  { resetEngine_parts s e with }

/-- The reset engine, whose reset is complete once the host has taken its page requests (R1386); no other engine
changes. -/
theorem beginReset_eng (s : State) (e : Engine) : ∃ d, ∀ f, (beginReset s e).eng f =
    if e = f then { (s.eng e).wiped d with resetPending := untaken s e } else s.eng f := by
  obtain ⟨d, eng⟩ := resetEngine_eng s e
  have requests : untaken (resetEngine s e) e = untaken s e := by
    rw [untaken, untaken, (resetEngine_parts s e).outstanding]
  refine ⟨d, fun f => ?_⟩
  rw [beginReset, State.eng_setEng, requests, eng, eng, if_pos rfl]
  split <;> rfl

theorem untaken_iff (s : State) (e : Engine) : untaken s e = true ↔
    ∃ r ∈ s.outstanding, r.engine = some e ∧ r.taken = false := by
  simp [untaken]

/-- The PASID of an advanced context that a reset takes out has one resident context less (R118, R1388). -/
theorem beginReset_pasidCount {s : State} {e : Engine} {c : Ctx} (resident : (s.eng e).ctx = some c)
    (listedOnce : (s.pasidState.map Prod.fst).Nodup) (p : BitVec 20) :
    pasidCount (beginReset s e).pasidState p = pasidCount s.pasidState p - c.counted p := by
  have left : (beginReset s e).pasidState = (leavePasid s c).pasidState :=
    (resetEngine_vacates s e).pasidState.trans (dropContext_pasidState resident)
  rw [left, pasidCount_leavePasid listedOnce]

/-- Settles O59: with nothing left to wait, the step ends in the state that `beginReset` gives. -/
theorem engineResetTakesTheContextOut : Obligations.EngineResetTakesTheContextOut := by
  intro s rest e inbox own
  have parts := beginReset_parts { s with inbox := rest } e
  obtain ⟨d, eng⟩ := beginReset_eng { s with inbox := rest } e
  have idle : (beginReset { s with inbox := rest } e).waiting = [] := by
    rw [parts.waiting, List.filter_eq_nil_iff]
    intro w hw
    simp [own w hw]
  have reset : step s = .next (beginReset { s with inbox := rest } e) :=
    (step_input inbox (by simp)).trans (congrArg outcome (drain_of_nothing idle))
  have same := eng e
  rw [if_pos rfl] at same
  refine ⟨_, reset, ?_⟩
  beta_reduce
  rw [same]
  refine ⟨rfl, rfl, rfl, rfl, rfl, rfl, idle, ?_, fun other => ?_, untaken_iff _ e, fun f other => ?_,
    parts.outstanding, parts.mem, parts.inbox, fun c resident advanced listedOnce => ?_, parts.kept,
    parts.cleared⟩
  · rw [parts.missBlocked]
    split
    · exact nofun
    · assumption
  · rw [parts.missBlocked]
    exact if_neg other
  · rw [eng, if_neg (Ne.symm other)]
    rfl
  · have count := beginReset_pasidCount (s := { s with inbox := rest }) resident listedOnce
    refine ⟨?_, fun p other => ?_⟩
    · rw [count]
      simp [Ctx.counted, advanced, b2n]
    · rw [count]
      simp [Ctx.counted, advanced, b2n, Ne.symm other]

end Sys2Proof.Machine
end

section
/-! PROOFS. What a walk of IA32E in memory changes of the state, and how one that faults ends. -/
namespace Sys2Proof.Machine

/-! ### A walk in memory changes memory alone -/

/-- `t` is `s` but for memory and the record of what its bytes were. -/
def OnlyMemory (s t : State) : Prop := t = { s with mem := t.mem, oldBytes := t.oldBytes }

theorem OnlyMemory.refl (s : State) : OnlyMemory s s := rfl

theorem OnlyMemory.trans {s t u : State} (first : OnlyMemory s t) (second : OnlyMemory t u) : OnlyMemory s u := by
  unfold OnlyMemory at *
  rw [second, first]

theorem atomicRmwQ_onlyMemory (s : State) (a : Nat) (f : QWord → QWord) : OnlyMemory s (atomicRmwQ s a f).2 := by
  unfold atomicRmwQ
  dsimp only
  split
  · exact .refl s
  · rfl

theorem readEntryAD_onlyMemory (s : State) (who : Option Engine) (q : RightsCtl) (parent addr : Nat) (inter : Bool) :
    OnlyMemory s (readEntryAD s .memory who q parent addr inter).2 := by
  unfold readEntryAD
  split
  · exact .refl s
  · exact atomicRmwQ_onlyMemory s addr _

theorem readEntryIa_onlyMemory (s : State) (who : Option Engine) (c : Ctx) (q : RightsCtl) (parent addr : Nat)
    (k : EntryKind) : OnlyMemory s (readEntryIa s .memory who c q parent addr k).2 := by
  cases managed : c.adEnable with
  | false => rw [readEntryIa_uncached s who c q parent addr k managed]; exact .refl s
  | true =>
    have atomic : readEntryIa s .memory who c q parent addr k =
        readEntryAD s .memory who q parent addr (k != .leaf) := by
      unfold readEntryIa
      rw [if_pos managed]
      dsimp only
      split <;> simp_all
    rw [atomic]
    exact readEntryAD_onlyMemory s who q parent addr _

section
variable (s : State) (who : Option Engine) (c : Ctx) (q : RightsCtl) (r : Rights)

theorem iaPt_onlyMemory (e2 : QWord) (va : Nat) : OnlyMemory s (iaPt s .memory who c q r e2 va).2 := by
  unfold iaPt
  dsimp only
  split
  · rename_i read
    exact (congrArg Prod.snd read) ▸ readEntryIa_onlyMemory s who c q _ _ _
  · rename_i read
    have after : OnlyMemory s _ := (congrArg Prod.snd read) ▸ readEntryIa_onlyMemory s who c q _ _ _
    repeat' split
    all_goals exact after

theorem iaEither_onlyMemory {below : State → Rights → QWord → WalkRes × State}
    (deeper : ∀ t r e, OnlyMemory t (below t r e).2) (parent addr reserved : Nat) (size : PageSize) (l : Level)
    (va : Nat) :
    OnlyMemory s (iaEither s who c q r parent addr reserved size l va below).2 := by
  unfold iaEither
  split
  · rename_i read
    exact (congrArg Prod.snd read) ▸ readEntryIa_onlyMemory s who c q _ _ _
  · rename_i read
    have after := (congrArg Prod.snd read) ▸ readEntryIa_onlyMemory s who c q _ _ _
    dsimp only
    split
    · split <;> exact after
    · split
      · exact after
      · exact after.trans (deeper _ _ _)

theorem iaPd_onlyMemory (e3 : QWord) (va : Nat) : OnlyMemory s (iaPd s .memory who c q r e3 va).2 := by
  rw [iaPd_eq_iaEither]
  exact iaEither_onlyMemory s who c q r (fun t r e => iaPt_onlyMemory t who c q r e va) _ _ _ _ _ _

theorem iaPdp_onlyMemory (e4 : QWord) (va : Nat) : OnlyMemory s (iaPdp s .memory who c q r e4 va).2 := by
  rw [iaPdp_eq_iaEither]
  exact iaEither_onlyMemory s who c q r (fun t r e => iaPd_onlyMemory t who c q r e va) _ _ _ _ _ _
end

/-- A walk of IA32E in memory changes memory alone, by its updates of Accessed and Dirty flags (R578). -/
theorem ia32eWalk_onlyMemory (s : State) (who : Option Engine) (c : Ctx) (va : Nat) (a : Acc) :
    OnlyMemory s (ia32eWalk s .memory who c va a).2 := by
  unfold ia32eWalk
  split
  · exact .refl s
  · split
    · exact .refl s
    · dsimp only
      split
      · rename_i read
        exact (congrArg Prod.snd read) ▸ readEntryIa_onlyMemory s who c _ _ _ _
      · rename_i read
        have after := (congrArg Prod.snd read) ▸ readEntryIa_onlyMemory s who c _ _ _ _
        split
        · exact after
        · exact after.trans (iaPdp_onlyMemory _ _ _ _ _ _ _)

/-! ### The page request of a fault -/

theorem PerEngine.set_set {α : Type} (p : PerEngine α) (e : Engine) (v w : α) : (p.set e v).set e w = p.set e w := by
  cases e <;> rfl

/-- With room in its TLB, a fact is remembered and none leaves. -/
theorem remember_of_room {s : State} {e : Engine} {f : Fact} {k : TlbId} (own : f.tlb = some k)
    (room : tlbCount k (s.eng e).facts < tlbCapacity s.par k) :
    remember s (some e) f = s.setEng e { s.eng e with facts := f :: (s.eng e).facts } := by
  have kept : makeRoom s (some e) k = s := if_pos room
  simp only [remember, own, kept]
  rfl

/-- The outstanding record of a fault (R1318). -/
def requestOfFault (e : Engine) (c : Ctx) (f : PageFault) (m : FaultModel) (prg : Nat) : PageRequest :=
  { engine := some e, pasid := c.pasid, contextID := c.contextID, page := f.va / 4096, acc := f.acc, code := f.code,
    level := f.level, mode := m, prgIndex := prg, last := false, terminating := false, taken := false }

/-- The faulted TLB record of a fault (R713). -/
def recordOfFault (e : Engine) (c : Ctx) (k : Client) (f : PageFault) : Fact :=
  .faulted (tlbOf (some e) k) (f.va / 4096) f.code (f.acc.isFetch && f.code == .privilege && !f.us) c.pasid

theorem sendPageRequest_of_room {s : State} {e : Engine} {k : Client}
    (room : tlbCount (tlbOf (some e) k) (s.eng e).facts < tlbCapacity s.par (tlbOf (some e) k)) (c : Ctx)
    (f : PageFault) (m : FaultModel) : sendPageRequest s e c k f m = { s with
      engines := s.engines.set e { s.eng e with facts := recordOfFault e c k f :: (s.eng e).facts }
      outstanding := s.outstanding ++ [requestOfFault e c f m s.nextPrg], nextPrg := s.nextPrg + 1
      events := { s.events with
        iommu := s.events.iommu ++ [.pageRequestVisible (requestOfFault e c f m s.nextPrg)] } } :=
  remember_of_room (s := issueRequest s (requestOfFault e c f m s.nextPrg)) (f := recordOfFault e c k f) rfl room

/-! ### Fault and halt, fault and stream -/

/-- The facts of an engine without the translations of a page that a TLB holds. -/
def factsBut (s : State) (e : Engine) (tlb : TlbId) (va : Nat) : List Fact :=
  (s.eng e).facts.filter (fun x => !x.translates tlb false va)

/-- The entries of the mini-TLB that stay when a client loses a page: the render engine's data ports lose those of the
page. -/
def miniTlbBut (s : State) (e : Engine) (k : Client) (page : Nat) : List MiniTlbEntry :=
  if k.isHdc && e == .render then s.miniTlb.filter (fun x => x.vpage.toNat != page) else s.miniTlb

theorem dropPage_eq (s : State) (e : Engine) (k : Client) (va : Nat) : dropPage s e k false va = { s with
    engines := s.engines.set e { s.eng e with facts := factsBut s e (tlbOf (some e) k) va }
    miniTlb := miniTlbBut s e k (va / 4096) } := by
  unfold dropPage miniTlbBut
  rw [Bool.not_false, Bool.and_true]
  split <;> rfl

theorem tlbCount_filter_le (k : TlbId) (p : Fact → Bool) (fs : List Fact) : tlbCount k (fs.filter p) ≤ tlbCount k fs :=
  (List.filter_sublist.filter _).length_le

section
variable {s : State} {e : Engine} {k : Client} {f : PageFault}
  (room : tlbCount (tlbOf (some e) k) (s.eng e).facts < tlbCapacity s.par (tlbOf (some e) k))
include room

/-- Fault and halt with room in the TLB of the client (R1316). -/
theorem takeHalt_of_room (ppgtt : f.ggtt = false) (c : Ctx) (table : Option Nat) (p : Pending) :
    takeHalt s e c k f table p = { s with
      engines := s.engines.set e { s.eng e with
        run := .halted f, facts := recordOfFault e c k f :: factsBut s e (tlbOf (some e) k) f.va }
      miniTlb := miniTlbBut s e k (f.va / 4096)
      outstanding := s.outstanding ++ [requestOfFault e c f .halt s.nextPrg], nextPrg := s.nextPrg + 1
      missBlocked := some e
      waiting := s.waiting ++ [{ req := p, faulted := true, table := table }]
      events := { s.events with
        iommu := s.events.iommu ++ [.pageRequestVisible (requestOfFault e c f .halt s.nextPrg)] }
      out := .pageFault f.code f.level } := by
  have dropped := dropPage_eq s e k f.va
  have eng : (dropPage s e k false f.va).eng e = { s.eng e with facts := factsBut s e (tlbOf (some e) k) f.va } := by
    rw [dropped]
    exact PerEngine.get_set_same _ _ _
  have room' : tlbCount (tlbOf (some e) k) ((dropPage s e k false f.va).eng e).facts <
      tlbCapacity (dropPage s e k false f.va).par (tlbOf (some e) k) := by
    rw [eng, dropped]
    exact (tlbCount_filter_le _ _ _).trans_lt room
  rw [takeHalt, ppgtt, sendPageRequest_of_room room', eng, dropped]
  simp only [State.setRun, State.setEng, State.eng, PerEngine.get_set_same, PerEngine.set_set]

/-- Fault and stream of a walk with room in the TLB of the client (R1320). -/
theorem takeStream_of_room (c : Ctx) (q : WalkReq) : takeStream s e c k f (.walk q) = { s with
      engines := s.engines.set e { s.eng e with
        streamFaultCount := (s.eng e).streamFaultCount + 1, facts := recordOfFault e c k f :: (s.eng e).facts }
      outstanding := s.outstanding ++ [requestOfFault e c f .stream s.nextPrg], nextPrg := s.nextPrg + 1
      events := ⟨s.events.driver, if (s.eng e).streamFaultCount = 0 then s.events.scheduler ++ [.streamFaultIRQ e]
        else s.events.scheduler,
        s.events.iommu ++ [.pageRequestVisible (requestOfFault e c f .stream s.nextPrg)], s.events.commandStreamers⟩
      out := .pageFault f.code f.level } := by
  have sent := sendPageRequest_of_room (s := returnFaultCode s f .stream (.walk q)) room c f .stream
  have eng : (sendPageRequest (returnFaultCode s f .stream (.walk q)) e c k f .stream).eng e =
      { s.eng e with facts := recordOfFault e c k f :: (s.eng e).facts } := by
    rw [sent]
    exact PerEngine.get_set_same _ _ _
  rw [takeStream, eng, sent]
  by_cases first : (s.eng e).streamFaultCount = 0
  · rw [if_pos first, if_pos first, State.setEng, PerEngine.set_set]
    rfl
  · rw [if_neg first, if_neg first, State.setEng, PerEngine.set_set]
    rfl
end

/-! ### The fault model of an advanced context -/

section
variable {s : State} {e : Engine} {c : Ctx} {k : Client} {m : Option (BitVec 6)} (advanced : c.advanced = true)
  (pfm : pfmField s e m = 0)
include advanced pfm

theorem faultModelOf_halt (h : c.faultModel = 1 ∨
      c.faultModel = 2 ∧ (bit s.reg404C 0 = true ∨ k ≠ .hdcCoherent ∧ k ≠ .ic)) :
    faultModelOf s e c k m false = .ok .halt := by
  obtain one | ⟨two, forced | other⟩ := h
  · simp [faultModelOf, advanced, pfm, one]
  · simp [faultModelOf, advanced, pfm, two, forced]
  · cases forced : bit s.reg404C 0
    · cases k <;> simp_all [faultModelOf]
    · simp [faultModelOf, advanced, pfm, two, forced]

theorem faultModelOf_stream (two : c.faultModel = 2) (free : bit s.reg404C 0 = false)
    (h : k = .hdcCoherent ∨ k = .ic) : faultModelOf s e c k m false = .ok .stream := by
  obtain rfl | rfl := h <;> simp [faultModelOf, advanced, pfm, two, free]
end

theorem takePageFault_halt {s : State} {f : PageFault} {e : Engine} {c : Ctx} {k : Client} {m : Option (BitVec 6)}
    (engine : f.engine = some e) (ppgtt : f.ggtt = false) (resident : (s.eng e).ctx = some c)
    (pre : c.iommu.preCtx = true) (model : faultModelOf s e c k m false = .ok .halt) (p : Pending) :
    takePageFault s f k m p = .ok (takeHalt s e c k f none p) := by
  simp [takePageFault, engine, ppgtt, resident, model, pre]

theorem takePageFault_stream {s : State} {f : PageFault} {e : Engine} {c : Ctx} {k : Client} {m : Option (BitVec 6)}
    (engine : f.engine = some e) (ppgtt : f.ggtt = false) (resident : (s.eng e).ctx = some c)
    (pre : c.iommu.preCtx = true) (model : faultModelOf s e c k m false = .ok .stream) (p : Pending) :
    takePageFault s f k m p = .ok (takeStream s e c k f p) := by
  simp [takePageFault, engine, ppgtt, resident, model, pre]

/-! ### The operation whose walk faults -/

section
variable {s u : State} {e : Engine} {k : Client} {m : BitVec 6} {a : Acc} {c : Ctx} {va : QWord} {code : FaultCode}
  {l : Level} {us : Bool}

/-- IA32E.WALK takes the fault that its walk meets, in the state that the walk leaves. -/
theorem WalkRuns.exec_ia32e_fault (run : WalkRuns s e k m a c) (mode : c.mode = .advanced)
    (walk : ia32eWalk s .memory (some e) c va.toNat a = (.fault code l us, u)) :
    exec (.ia32eWalk e k m a va) s = outcome (takePageFault u (faultOf (some e) (some c) false va.toNat a code l us) k
      (some m) (.walk (ctxWalkReq e k m a va))) := by
  calc exec (.ia32eWalk e k m a va) s
      = outcome (finishWalk (ia32eWalk s .memory (some e) c va.toNat a) (some c) (ctxWalkReq e k m a va)) :=
        congrArg outcome (run.walkCtx_eq mode va)
    _ = _ := by rw [walk]; rfl

theorem walk_uncached (walk : ia32eWalk s .memory (some e) c va.toNat a = (.fault code l us, u))
    (plain : c.adEnable = false) : u = s :=
  (congrArg Prod.snd walk).symm.trans (ia32eWalk_uncached s (some e) c va.toNat a plain)

theorem walk_onlyMemory (walk : ia32eWalk s .memory (some e) c va.toNat a = (.fault code l us, u)) :
    ∃ mem old, u = { s with mem := mem, oldBytes := old } :=
  ⟨_, _, (congrArg Prod.snd walk) ▸ ia32eWalk_onlyMemory s (some e) c va.toNat a⟩
end

/-- Settles O56: the walk changes memory alone, so that fault and stream finds the rest of the state as it was. -/
theorem faultAndStreamEntry : Obligations.FaultAndStreamEntry := by
  intro s u e k m a va c code l us f r resident mode pre iommu mocs pfm client ready room two free streams walk hf hr
  have advanced := mode_eq_advanced_iff.1 mode
  have one : ¬ (c.faultModel = 1 ∧ k = .hdcCoherent) := fun h => absurd (two.symm.trans h.1) (by decide)
  have run : WalkRuns s e k m a c := ⟨resident, ready, clientProgramming_eq_none client mocs pfm (.inr one) iommu⟩
  refine ⟨walk_uncached walk, ?_⟩
  obtain ⟨mem, old, rfl⟩ := walk_onlyMemory walk
  subst hf hr
  have models : faultModelOf { s with mem := mem, oldBytes := old } e c k (some m) false = .ok .stream :=
    faultModelOf_stream advanced pfm two free streams
  have taken := takePageFault_stream (s := { s with mem := mem, oldBytes := old })
    (f := faultOf (some e) (some c) false va.toNat a code l us) rfl rfl resident pre models
    (.walk (ctxWalkReq e k m a va))
  rw [run.exec_ia32e_fault mode walk, taken, takeStream_of_room (s := { s with mem := mem, oldBytes := old }) room]
  have page : va.toNat / 4096 * 4096 / 4096 = va.toNat / 4096 := Nat.mul_div_cancel _ (by decide)
  simp only [outcome, recordOfFault, requestOfFault, faultOf, page]
  rfl

end Sys2Proof.Machine
end

section
/-! PROOFS. The first entry of a walk of IA32E that denies the access is where the walk faults; fault and halt. -/
namespace Sys2Proof.Machine

/-! ### The fault that one entry alone gives -/

section
variable (c : Ctx) (a : Acc)

/-- The code of the rights of an entry that is the first of its walk (R591, R601). -/
theorem rightsSoFar_start_fold (e : QWord) : rightsSoFar (rightsCtl c a) (Rights.start.fold e) =
    if ((c.supervisor && c.iommu.sre) = false ∧ bit e 2 = false) ∨
        (a = .fetch ∧ c.iommu.ere = true ∧ c.iommu.nxe = true ∧ bit e 63 = true) then .privilege
    else if isWrite a = true ∧ (c.iommu.wpe = true ∨ (c.supervisor && c.iommu.sre) = false) ∧ bit e 1 = false
      then .writePermission
    else .noFault := by
  have fetch : a.isFetch = true ↔ a = .fetch := by cases a <;> simp [Acc.isFetch]
  rw [ite_or]
  simp only [rightsSoFar, rightsCtl, Rights.fold, Rights.start, entryRW, entryUS, entryXD]
  simp only [Bool.and_eq_true, Bool.not_eq_true', Bool.or_eq_true, Bool.true_and, Bool.false_or, fetch, and_assoc]

/-- The fault that an entry gives whatever the entries above it are, if it gives one (R590, R591, R600, R601). -/
def denial (haw : Nat) (e : QWord) (reserved : Nat) : Option FaultCode :=
  if bit e 0 = false ∨ e.toNat &&& (maskOf haw 51 ||| reserved) ≠ 0 then some .notPresent
  else if ((c.supervisor && c.iommu.sre) = false ∧ bit e 2 = false) ∨
      (a = .fetch ∧ c.iommu.ere = true ∧ c.iommu.nxe = true ∧ bit e 63 = true)
    then some .privilege
  else if isWrite a = true ∧ (c.iommu.wpe = true ∨ (c.supervisor && c.iommu.sre) = false) ∧ bit e 1 = false
    then some .writePermission
  else none

variable {c a} {haw reserved : Nat} {e : QWord}

/-- It is the code of `Check` (R578) for the first entry of a walk. -/
theorem checkEntry_start : (checkEntry (rightsCtl c a) .start (maskOf haw 51 ||| reserved) e).1 =
    (denial c a haw e reserved).getD .noFault := by
  rw [denial, ite_or, checkEntry, entryP_eq]
  simp only [rightsSoFar_start_fold, apply_ite Prod.fst, apply_ite (Option.getD · FaultCode.noFault),
    Option.getD_some, Option.getD_none, Bool.not_eq_true', ne_eq]

theorem denial_ne_noFault : denial c a haw e reserved ≠ some .noFault := by
  unfold denial
  split_ifs <;> decide
end

/-! ### The rights above it -/

/-- Rights that the entries of a walk so far grant. -/
def SoFarGranted (q : RightsCtl) (r : Rights) : Prop := rightsSoFar q r = .noFault

section
variable {q : RightsCtl} {r : Rights} {reserved : Nat} {e : QWord}

theorem soFarGranted_start (q : RightsCtl) : SoFarGranted q .start := by
  simp [SoFarGranted, rightsSoFar, Rights.start]

theorem soFarGranted_iff : SoFarGranted q r ↔ (q.supervisor = false → r.us = true) ∧
    (q.fetch = true → q.nxe = true → r.xd = false) ∧ (q.w = true → q.wp = true → r.rw = true) := by
  unfold SoFarGranted rightsSoFar
  split_ifs <;> simp_all

/-- Below entries that grant the access, an entry is checked as if it were the first. -/
theorem SoFarGranted.rightsSoFar_fold (granted : SoFarGranted q r) :
    rightsSoFar q (r.fold e) = rightsSoFar q (Rights.start.fold e) := by
  obtain ⟨user, executable, writable⟩ := soFarGranted_iff.1 granted
  have us : (!q.supervisor && !(r.fold e).us) = (!q.supervisor && !(Rights.start.fold e).us) := by
    cases supervisor : q.supervisor
    · simp [Rights.fold, Rights.start, user supervisor]
    · rfl
  have xd : (q.fetch && q.nxe && (r.fold e).xd) = (q.fetch && q.nxe && (Rights.start.fold e).xd) := by
    cases fetch : q.fetch && q.nxe
    · rfl
    · rw [Bool.and_eq_true] at fetch
      simp [Rights.fold, Rights.start, executable fetch.1 fetch.2]
  have writes : (q.w && q.wp && !(r.fold e).rw) = (q.w && q.wp && !(Rights.start.fold e).rw) := by
    cases write : q.w && q.wp
    · rfl
    · rw [Bool.and_eq_true] at write
      simp [Rights.fold, Rights.start, writable write.1 write.2]
  rw [rightsSoFar, us, xd, writes, rightsSoFar]

theorem SoFarGranted.checkEntry_fst (granted : SoFarGranted q r) :
    (checkEntry q r reserved e).1 = (checkEntry q .start reserved e).1 := by
  unfold checkEntry
  dsimp only
  rw [granted.rightsSoFar_fold]
  split_ifs <;> rfl

/-- An entry that passes leaves the access granted. -/
theorem soFarGranted_of_checkEntry (passes : (checkEntry q r reserved e).1 = .noFault) :
    SoFarGranted q (checkEntry q r reserved e).2 := by
  unfold checkEntry at passes ⊢
  split at passes
  · cases passes
  · split at passes
    · cases passes
    · simp_all [SoFarGranted]
end

/-! ### The walk, level by level -/

/-- A walk that faults with a code at a level, and leaves the state `s`. -/
def FaultsAs (w : WalkRes × State) (x : FaultCode) (l : Level) (s : State) : Prop := ∃ us, w = (.fault x l us, s)

theorem faultsAs_of_code {q : RightsCtl} {k : FaultCode × Rights} {x : FaultCode} (code : k.1 = x)
    (fault : x ≠ .noFault) (l : Level) (s : State) (w : WalkRes × State) :
    FaultsAs (if k.1 ≠ .noFault then (.fault k.1 l (usFault q k), s) else w) x l s :=
  ⟨usFault q k, by rw [if_pos (code ▸ fault), code]⟩

section
variable {s : State} {who : Option Engine} {c : Ctx} {a : Acc} {r : Rights} {e : QWord} {x : FaultCode} {l l' : Level}
  {va : Nat} (plain : c.adEnable = false) (granted : SoFarGranted (rightsCtl c a) r)
include granted

/-- The code of the check of an entry below granted rights: what the entry alone gives. -/
theorem checkEntry_code (haw reserved : Nat) : (checkEntry (rightsCtl c a) r (maskOf haw 51 ||| reserved) e).1 =
    (denial c a haw e reserved).getD .noFault := by
  rw [granted.checkEntry_fst, checkEntry_start]

/-- An entry of a directory has the reserved bits of a leaf if it is one; one that is not present is not looked at
further. -/
theorem checkEntry_code_either (haw reserved : Nat) :
    (checkEntry (rightsCtl c a) r
        (if (entryP e && entryPS e) = true then reservedHaw haw ||| reserved else reservedHaw haw) e).1 =
      (denial c a haw e (if bit e 7 = true then reserved else 0)).getD .noFault := by
  rw [entryP_eq, entryPS_eq]
  cases present : bit e 0
  · simp [checkEntry, entryP_eq, denial, present]
  · rw [Bool.true_and, ← checkEntry_code granted]
    split
    · rfl
    · rw [Nat.or_zero]
      rfl

include plain

section
variable {parent addr reserved : Nat} {size : PageSize} {below : State → Rights → QWord → WalkRes × State}
  (read : e = memReadQ s addr)
include read

theorem iaEither_faults (denies : denial c a s.par.haw e (if bit e 7 = true then reserved else 0) = some x) :
    FaultsAs (iaEither s who c (rightsCtl c a) r parent addr reserved size l va below) x l s := by
  have code := checkEntry_code_either (e := e) granted s.par.haw reserved
  have fault : x ≠ .noFault := fun h => denial_ne_noFault (h ▸ denies)
  rw [denies, Option.getD_some] at code
  simp only [iaEither, readEntryIa_uncached _ _ _ _ _ _ _ plain, ← read]
  split at code
  · next leaf =>
      rw [if_pos leaf]
      exact faultsAs_of_code code fault _ _ _
  · next pointer =>
      rw [if_neg pointer]
      exact faultsAs_of_code code fault _ _ _

theorem iaEither_passes (grants : denial c a s.par.haw e (if bit e 7 = true then reserved else 0) = none)
    (pointer : bit e 7 = false) (deeper : ∀ r', SoFarGranted (rightsCtl c a) r' → FaultsAs (below s r' e) x l' s) :
    FaultsAs (iaEither s who c (rightsCtl c a) r parent addr reserved size l va below) x l' s := by
  have code := checkEntry_code_either (e := e) granted s.par.haw reserved
  have isPointer : ¬ (entryP e && entryPS e) = true := by simp [entryPS_eq, pointer]
  rw [grants, Option.getD_none, if_neg isPointer] at code
  simp only [iaEither, readEntryIa_uncached _ _ _ _ _ _ _ plain, ← read]
  rw [if_neg isPointer, if_neg (not_not.2 code)]
  exact deeper _ (soFarGranted_of_checkEntry code)
end

theorem iaPt_faults {e2 : QWord} {big : Bool} (large : big = (c.enable64K s.par && bit e2 11))
    (read : e = memReadQ s (bits e2 (s.par.haw - 1) 12 * 4096 +
      (if big = true then 128 * nbits va 20 16 else 8 * nbits va 20 12)))
    (denies : denial c a s.par.haw e (if big = true then maskOf 12 15 else 0) = some x) :
    FaultsAs (iaPt s .memory who c (rightsCtl c a) r e2 va) x .pt s := by
  subst large
  rw [← ptAddress_eq] at read
  have code := checkEntry_code granted s.par.haw _ (e := e) |>.trans (congrArg (Option.getD · .noFault) denies)
  have fault : x ≠ .noFault := fun h => denial_ne_noFault (h ▸ denies)
  have value := readEntryIa_uncached s who c (rightsCtl c a) (parentIndex e2) (ptAddress s.par c e2 va) .leaf plain
  rw [← read] at value
  simp only [ptAddress] at value
  simp only [iaPt, value]
  exact faultsAs_of_code code fault _ _ _
end

section
variable {s : State} {who : Option Engine} {c : Ctx} {a : Acc} {e : QWord} {va : Nat} (plain : c.adEnable = false)
  (inside : va < 2 ^ 48) (off : s.par.gttCacheEnable = false)
  (read : e = memReadQ s (bits c.pml4 (s.par.haw - 1) 12 * 4096 + 8 * nbits va 47 39)) {x : FaultCode} {l : Level}
include plain inside off read

theorem ia32eWalk_eq_check : ia32eWalk s .memory who c va a =
    (let k := checkEntry (rightsCtl c a) .start (maskOf s.par.haw 51 ||| maskOf 7 7) e
    if k.1 ≠ .noFault then (.fault k.1 .pml4 (usFault (rightsCtl c a) k), s)
    else iaPdp s .memory who c (rightsCtl c a) k.2 e va) := by
  have inside' : ¬ va ≥ 2 ^ 48 := Nat.not_le.2 inside
  simp only [ia32eWalk, inside', off, addrField_twelve, readEntryIa_uncached _ _ _ _ _ _ _ plain, ← read, reservedHaw,
    Bool.false_eq_true, if_false]
  rfl

theorem ia32eWalk_faults (denies : denial c a s.par.haw e (maskOf 7 7) = some x) :
    FaultsAs (ia32eWalk s .memory who c va a) x .pml4 s := by
  have code := checkEntry_start (c := c) (a := a) (haw := s.par.haw) (reserved := maskOf 7 7) (e := e)
  have fault : x ≠ .noFault := fun h => denial_ne_noFault (h ▸ denies)
  rw [denies, Option.getD_some] at code
  rw [ia32eWalk_eq_check plain inside off read]
  exact faultsAs_of_code code fault _ _ _

theorem ia32eWalk_passes (grants : denial c a s.par.haw e (maskOf 7 7) = none)
    (deeper : ∀ r, SoFarGranted (rightsCtl c a) r → FaultsAs (iaPdp s .memory who c (rightsCtl c a) r e va) x l s) :
    FaultsAs (ia32eWalk s .memory who c va a) x l s := by
  have code := checkEntry_start (c := c) (a := a) (haw := s.par.haw) (reserved := maskOf 7 7) (e := e)
  rw [grants, Option.getD_none] at code
  rw [ia32eWalk_eq_check plain inside off read]
  simp only [code, ne_eq, not_true_eq_false, if_false]
  exact deeper _ (soFarGranted_of_checkEntry code)
end

/-- Settles O55: fault and halt after a walk that changed memory alone; and the walk faults at the first entry that
denies the access, for rights granted above an entry leave it to be checked alone. -/
theorem faultAndHaltEntry : Obligations.FaultAndHaltEntry := by
  refine ⟨fun s u e k m a va c code l us f r resident mode pre iommu mocs pfm client ready room model walk hf hr =>
    ?entry, fun s e a va c e4 e3 e2 e1 big plain inside off read4 read3 read2 large read1 => ?levels⟩
  case entry =>
    have advanced := mode_eq_advanced_iff.1 mode
    have one : ¬ (c.faultModel = 1 ∧ k = .hdcCoherent) := by
      rintro ⟨one, coherent⟩
      obtain ⟨-, other⟩ | ⟨two, -⟩ := model
      · exact other coherent
      · exact absurd (two.symm.trans one) (by decide)
    have run : WalkRuns s e k m a c := ⟨resident, ready, clientProgramming_eq_none client mocs pfm (.inr one) iommu⟩
    refine ⟨walk_uncached walk, ?_⟩
    obtain ⟨mem, old, rfl⟩ := walk_onlyMemory walk
    subst hf hr
    have halts : faultModelOf { s with mem := mem, oldBytes := old } e c k (some m) false = .ok .halt :=
      faultModelOf_halt advanced pfm (model.imp_left And.left)
    have taken := takePageFault_halt (s := { s with mem := mem, oldBytes := old })
      (f := faultOf (some e) (some c) false va.toNat a code l us) rfl rfl resident pre halts
      (.walk (ctxWalkReq e k m a va))
    rw [run.exec_ia32e_fault mode walk, taken, takeHalt_of_room (s := { s with mem := mem, oldBytes := old }) room rfl]
    have page : va.toNat / 4096 * 4096 / 4096 = va.toNat / 4096 := Nat.mul_div_cancel _ (by decide)
    simp only [outcome, recordOfFault, requestOfFault, faultOf, page]
    rfl
  case levels =>
    have below4 {x : FaultCode} {l : Level} := ia32eWalk_passes (who := some e) (a := a) plain inside off read4
      (x := x) (l := l)
    refine ⟨fun x d4 => ia32eWalk_faults plain inside off read4 d4, fun x d4 d3 => below4 d4 fun r granted => ?pdp,
      fun x d4 d3 p3 d2 => below4 d4 fun r granted => ?pd,
      fun x d4 d3 p3 d2 p2 d1 => below4 d4 fun r granted => ?pt⟩
    case pdp =>
      rw [iaPdp_eq_iaEither]
      exact iaEither_faults plain granted read3 d3
    case pd =>
      rw [iaPdp_eq_iaEither]
      refine iaEither_passes plain granted read3 d3 p3 fun r3 granted3 => ?_
      rw [iaPd_eq_iaEither]
      exact iaEither_faults plain granted3 read2 d2
    case pt =>
      rw [iaPdp_eq_iaEither]
      refine iaEither_passes plain granted read3 d3 p3 fun r3 granted3 => ?_
      rw [iaPd_eq_iaEither]
      exact iaEither_passes plain granted3 read2 d2 p2 fun r2 granted2 => iaPt_faults plain granted2 large read1 d1

end Sys2Proof.Machine
end
